-- ==== Sys2Proof/Word.lean ====
section
/-!
DEFINITION. The units the manual counts in (00_scope.md section 3.5): bytes of packets, 16-bit words of the record
store, the four-byte pixels of a LINE packet, and lists of (address, value) pairs for addressed storage.
-/

namespace Sys2Proof

/-- A byte of a packet. -/
abbrev Byte := BitVec 8

/-- A word of the record store, and any two-byte field of a packet. -/
abbrev Word := BitVec 16

/-- A pixel as a LINE packet carries it (R203). -/
abbrev PixelWord := BitVec 32

/-- Addressed storage: the entries that differ from what an unlisted address reads as, addresses rising. -/
abbrev Cells (α : Type) := List (Nat × α)

end Sys2Proof
end

