-- ==== Sys2Proof/Config.lean ====
section
/-!
DEFINITION. What the manual fixes as numbers: the timer lengths, the sizes of queues and of the record store, and the
pin levels the model assumes at reset. No value of this model is left free by an opaque constant: what the
surroundings decide (elapsed time, what a store device left behind) is an operand of the commands.
-/

namespace Sys2Proof.Config

/-- Signal timer, microseconds (R44). -/
def signalTimeout : Nat := 100000
/-- Line-gap timer, microseconds (R44, R54). -/
def lineGapTimeout : Nat := 25000
/-- Acquisition timer, microseconds (R44, R61). -/
def acquisitionTimeout : Nat := 1000000
/-- Downstream link timer, microseconds (R140). -/
def linkTimeout : Nat := 2000
/-- IDLE interval of the Upstream port, microseconds (R145). -/
def idleInterval : Nat := 200
/-- Stall timer of a tile port, microseconds (R92). -/
def stallTimeout : Nat := 5000
/-- Lease of code 0, microseconds (R163). -/
def leaseUnit : Nat := 10000
/-- Words of one bank (R106). -/
def bankWords : Nat := 32768
/-- First word of the first record of a bank (R109). -/
def firstRecord : Nat := 8
/-- Longest record body, words (R109). -/
def maxBody : Nat := 3200
/-- Free words below which STORE-NEARLY-FULL is raised (R117, R132). -/
def nearlyFull : Nat := 4096
/-- Port lines a tile port's queue holds (R90). -/
def portQueue : Nat := 8
/-- Packets the pass-through buffer holds (R142). -/
def passBuffer : Nat := 4
/-- Pixels one line of one port may carry (R9, R14). -/
def lineBudget : Nat := 1024
/-- Width and height of the raster space of the tile map (R2, R11). -/
def rasterLimit : Nat := 8192
/-- Longest run of a LINE packet that RANGE admits (R50). -/
def maxRun : Nat := 512
/-- Entries of the three curves of a correction table (R68). -/
def tableEntries : Nat := 3072
/-- Level of every READY line at `State.reset`. DESIGN CHOICE (log 5), unsafe: the manual gives pins no level at reset. -/
def readyAtReset : Bool := false
/-- Level of the HOLD input at `State.reset`. DESIGN CHOICE (log 5), unsafe. -/
def holdInAtReset : Bool := false

end Sys2Proof.Config
end

