-- ==== Sys2Proof/Syntax.lean ====
section
/-!
DEFINITION. The commands of the block: one constructor of `Instr` for each row of spec/opcode_table.json, in the
table's order. Every command carries `dt`, the microseconds since the command before it was taken (log 1).
-/

namespace Sys2Proof

/-- What a CONTROL packet carries beside its request kind (R151, R203). -/
structure Ctl where
  dest : Byte
  key  : Byte
  seq  : Byte
  ops  : List Byte
deriving DecidableEq, Repr

/-- What the nonvolatile store device did to access number `step` (counted from 0) of the accesses an operation makes
(R106, R127). A programmed word reads as its old value with the zero bits of `word` cleared, and a bank under erasure
reads as `cells`. The surroundings decide it (log 9), within what section 6.9 says a state word or a header can read
(log 49). -/
structure Mishap where
  step  : Nat
  word  : Word
  cells : Cells Word
deriving DecidableEq, Repr

/-- The request kinds of the catalogue in section 8.8, in its order. -/
inductive ReqKind where
  | openSession
  | closeSession
  | keep
  | readStatus
  | cursorSet
  | cursorWrite
  | cursorRead
  | readTile
  | openEdit
  | setTile
  | clearTile
  | setFill
  | checkEdit
  | closeEdit
  | abandonEdit
  | selectContext
  | selectSequence
  | cancelSelect
  | hold
  | release
  | beginTable
  | endTable
  | abandonTable
  | setPort
  | forcePattern
  | setCadence
  | readPort
  | saveContext
  | saveTable
  | saveSettings
  | restoreContext
  | restoreTable
  | deleteRecord
  | compact
  | eraseStore
  | readStoreStatus
  | setNoticeClass
  | enumerate
  | reset
deriving DecidableEq, Repr

/-- The commands: the rows of spec/opcode_table.json. -/
inductive Instr where
  /-- Power is applied, and the controller is held in reset until the supplies and the clock are stable. (R198) -/
  | powerOn (dt : Nat) (cut : Mishap)
  /-- The RSTN pin goes low, and the controller is held in reset; any operation in progress is cut off. (R198) -/
  | rstnLow (dt : Nat) (cut : Mishap)
  /-- RSTN rises with supplies and clock stable: every block takes its reset values, the phase is STARTING, and the trunk link, Frame Tracker, cadence timer, IDLE interval and start-up load begin. (R198) -/
  | releaseOfReset (dt : Nat)
  /-- The header reads end: the newer ACTIVE bank is chosen, or bank A is erased and made ACTIVE with generation 1, with STORE-FAULT on a verify failure. (R129) -/
  | startupBankChoice (dt : Nat) (fault : Option Mishap)
  /-- The scan of the active bank ends: records are noted, the directory and append point are set, bad and stale records are noted, and faults raise STORE-FAULT. (R130) -/
  | startupScan (dt : Nat)
  /-- A key's live record is read and loaded into its context, table or the settings, or is refused with CONTEXT-LOAD-FAILED or STORE-FAULT. (R131) -/
  | startupRecordLoad (dt : Nat)
  /-- Each stale record is programmed SUPERSEDED, and STORE-NEARLY-FULL may be raised at the end. (R132) -/
  | startupTidy (dt : Nat) (faults : List (Nat × Word))
  /-- The Record Store reports that the load is complete, and the device phase becomes RUNNING. (R190) -/
  | startupLoadCompletion (dt : Nat)
  /-- A forward-lane packet that is not intact is dropped and raises TRUNK-INTEGRITY with lane FORWARD. (R135) -/
  | forwardPacketDropped (dt : Nat) (bytes : List Byte)
  /-- An intact FRAME-START closes any open frame TRUNCATED, opens the new frame, measures the period, judges lock and raises the frame-open event. (R46) -/
  | frameStart (dt : Nat) (frame width height : Word)
  /-- An intact LINE of the current frame restarts the line-gap timer, is counted, and is checked, then accepted or discarded. (R49) -/
  | line (dt : Nat) (frame y x0 : Word) (pixels : List PixelWord)
  /-- An intact FRAME-END of the current frame compares the run count and closes the frame. (R53) -/
  | frameEnd (dt : Nat) (frame runs : Word)
  /-- An intact forward IDLE restarts the signal timer and is forwarded. (R45) -/
  | idle (dt : Nat)
  /-- An intact packet of a kind other than the five forward-lane kinds reaches the Frame Tracker and is forwarded. (R136) -/
  | forwardUnknownKind (dt : Nat) (bytes : List Byte)
  /-- An intact CONTROL packet not addressed to this controller, or a broadcast of a kind that is not executed, is forwarded and otherwise ignored. (R137) -/
  | controlNotAddressed (dt : Nat) (kind : Byte) (c : Ctl)
  /-- An addressed request of an unknown kind reserves a slot and is answered UNKNOWN-REQUEST. (R153) -/
  | unknownRequest (dt : Nat) (kind : Byte) (c : Ctl)
  /-- Opens a session in the lowest FREE slot, or repeats the cached answer, or refuses. (R158) -/
  | openSession (dt : Nat) (c : Ctl)
  /-- Releases what the session owns and frees its slot. (R161) -/
  | closeSession (dt : Nat) (c : Ctl)
  /-- Renews the session's lease. (R162) -/
  | keep (dt : Nat) (c : Ctl)
  /-- Returns one part of the controller state: DEVICE, SESSIONS, MAP, FRAME or LINK. (R173) -/
  | readStatus (dt : Nat) (c : Ctl)
  /-- Sets the session cursor's target and position. (R169) -/
  | cursorSet (dt : Nat) (c : Ctl)
  /-- Writes 1 to 24 entries into the staging curves from the cursor and advances it. (R170) -/
  | cursorWrite (dt : Nat) (c : Ctl)
  /-- Reads 1 to 24 entries from the staging area or a live table from the cursor and advances it. (R171) -/
  | cursorRead (dt : Nat) (c : Ctl)
  /-- Returns one slot of a context or of the edit buffer, with the table's state. (R16) -/
  | readTile (dt : Nat) (c : Ctl)
  /-- Takes the edit buffer for a context by COPY or CLEAR and makes the context OPEN. (R21) -/
  | openEdit (dt : Nat) (c : Ctl)
  /-- Writes one tile entry into a buffer slot. (R22) -/
  | setTile (dt : Nat) (c : Ctl)
  /-- Makes a buffer slot unused. (R23) -/
  | clearTile (dt : Nat) (c : Ctl)
  /-- Sets the buffer's fill colour. (R24) -/
  | setFill (dt : Nat) (c : Ctl)
  /-- Validates the buffer and stores the result. (R25) -/
  | checkEdit (dt : Nat) (c : Ctl)
  /-- Validates the buffer and, unless a save of the target is in flight, writes it into the target context, which becomes READY. (R26) -/
  | closeEdit (dt : Nat) (c : Ctl)
  /-- Discards the buffer, and the target returns to its prior status. (R27) -/
  | abandonEdit (dt : Nat) (c : Ctl)
  /-- Places a switch part with target CONTEXT c and an optional not-before frame. (R29) -/
  | selectContext (dt : Nat) (c : Ctl)
  /-- Places a switch part with a SEQUENCE target. (R30) -/
  | selectSequence (dt : Nat) (c : Ctl)
  /-- Removes the switch part from the pending change set. (R32) -/
  | cancelSelect (dt : Nat) (c : Ctl)
  /-- Sets the HOLD flag of the pending change set. (R33) -/
  | hold (dt : Nat) (c : Ctl)
  /-- Clears the HOLD flag. (R33) -/
  | release (dt : Nat) (c : Ctl)
  /-- Takes the staging area for table t by COPY or IDENTITY. (R71) -/
  | beginTable (dt : Nat) (c : Ctl)
  /-- Hands the staging area over, places the install part and drops a STAGING cursor. (R72) -/
  | endTable (dt : Nat) (c : Ctl)
  /-- Frees the staging area without installing it. (R73) -/
  | abandonTable (dt : Nat) (c : Ctl)
  /-- Sets a port's enabled item, loss policy and policy pattern. (R87) -/
  | setPort (dt : Nat) (c : Ctl)
  /-- Sets the forced pattern of one port or of all ports. (R88) -/
  | forcePattern (dt : Nat) (c : Ctl)
  /-- Sets the cadence code. (R97) -/
  | setCadence (dt : Nat) (c : Ctl)
  /-- Returns a port's configuration, state, queue, tallies and cadence. (R96) -/
  | readPort (dt : Nat) (c : Ctl)
  /-- Starts saving a READY context as a record, with the context pinned. (R114) -/
  | saveContext (dt : Nat) (c : Ctl)
  /-- Starts saving a correction table as a record, with the table pinned. (R115) -/
  | saveTable (dt : Nat) (c : Ctl)
  /-- Starts saving the port configurations, cadence, notice classes and start selection. (R116) -/
  | saveSettings (dt : Nat) (c : Ctl)
  /-- Starts reading a context record for the owned edit buffer. (R120) -/
  | restoreContext (dt : Nat) (c : Ctl)
  /-- Starts reading a table record for the owned staging area. (R121) -/
  | restoreTable (dt : Nat) (c : Ctl)
  /-- Starts marking a key's live record SUPERSEDED. (R122) -/
  | deleteRecord (dt : Nat) (c : Ctl)
  /-- Starts copying the live records into the other bank. (R123) -/
  | compact (dt : Nat) (c : Ctl)
  /-- Starts erasing both banks and making bank A ACTIVE with generation 1. (R126) -/
  | eraseStore (dt : Nat) (c : Ctl)
  /-- Returns the Record Store state, even while an operation is in flight. (R134) -/
  | readStoreStatus (dt : Nat) (c : Ctl)
  /-- Sets the class of a notice kind, and class 3 empties its slot. (R182) -/
  | setNoticeClass (dt : Nat) (c : Ctl)
  /-- An ENUMERATE with destination 0 is decided taken or not taken while it is held in the forwarding order. (R194) -/
  | enumerate (dt : Nat) (c : Ctl)
  /-- Resets the controller in-band, SOFT or FULL. (R199) -/
  | reset (dt : Nat) (c : Ctl)
  /-- A save finishes programming its header, body, VALID state and supersession, and answers OK or WRITE-FAULT. (R117) -/
  | saveCompletion (dt : Nat) (fault : Option Mishap)
  /-- The context record is checked and placed in the edit buffer, or CHECK-FAIL is answered. (R120) -/
  | restoreContextCompletion (dt : Nat)
  /-- The table record is checked and placed in the staging curves, or CHECK-FAIL is answered. (R121) -/
  | restoreTableCompletion (dt : Nat)
  /-- The record is SUPERSEDED and the directory entry is made absent, or WRITE-FAULT is answered. (R122) -/
  | deleteCompletion (dt : Nat) (fault : Option Mishap)
  /-- The new bank becomes ACTIVE with the next generation and the old one RETIRED, or the compaction aborts with WRITE-FAULT. (R123) -/
  | compactCompletion (dt : Nat) (fault : Option Mishap)
  /-- Both banks are erased and bank A made ACTIVE with an empty directory, or WRITE-FAULT is answered. (R126) -/
  | eraseStoreCompletion (dt : Nat) (fault : Option Mishap)
  /-- A READY session's lease runs out: its edit buffer and staging area are released and its slot becomes FREE. (R164) -/
  | leaseExpiry (dt : Nat) (slot : Fin 4)
  /-- 100 ms pass without an intact forward packet: the lock state becomes NO-SIGNAL, the open frame closes and the lock timers stop. (R60) -/
  | signalTimerExpiry (dt : Nat)
  /-- 25 ms pass without a LINE of the current frame, and the frame closes TRUNCATED. (R54) -/
  | lineGapTimerExpiry (dt : Nat)
  /-- 1 s passes in ACQUIRING without a frame open, and the lock state becomes LOST. (R61) -/
  | acquisitionTimerExpiry (dt : Nat)
  /-- No open comes within reference plus an eighth, so LOCKED becomes HOLDOVER and the loss timer starts. (R62) -/
  | holdoverDeadlineExpiry (dt : Nat)
  /-- Four reference periods pass in HOLDOVER, and the lock state becomes LOST. (R63) -/
  | lossTimerExpiry (dt : Nat)
  /-- A chain raises READY: the stall flag clears and a transfer starts if the queue is non-empty. (R90) -/
  | readyRises (dt : Nat) (port : Fin 8)
  /-- A chain lowers READY, which may start the stall timer. (R92) -/
  | readyFalls (dt : Nat) (port : Fin 8)
  /-- A port line transfer completes: the head leaves the queue, trunk rows are counted delivered and the next transfer may start. (R90) -/
  | transferCompletion (dt : Nat) (port : Fin 8)
  /-- 5 ms pass with lines queued, no transfer and READY low: the stall flag is set and PORT-STALLED raised. (R92) -/
  | stallTimerExpiry (dt : Nat) (port : Fin 8)
  /-- The shared cadence timer expires and restarts, and each port may start a pattern or policy frame. (R99) -/
  | cadenceExpiry (dt : Nat)
  /-- A generated line is placed at the tail of the port queue once there is room. (R99) -/
  | generatedLinePlaced (dt : Nat) (port : Fin 8)
  /-- A return-lane packet begins to arrive, which raises the HOLD output when three packets are already buffered. (R143) -/
  | returnReceptionBegins (dt : Nat)
  /-- An intact non-IDLE return packet acts on the link state and joins the pass-through buffer, or is dropped as OVERFLOW. (R141) -/
  | returnPacket (dt : Nat) (bytes : List Byte)
  /-- An intact return IDLE acts on the link state and is discarded. (R140) -/
  | returnIdle (dt : Nat)
  /-- A return packet that is not intact is dropped with TRUNK-INTEGRITY lane RETURN. (R141) -/
  | returnPacketDropped (dt : Nat) (bytes : List Byte)
  /-- 2 ms pass without return traffic while UP and not held: the link becomes DOWN and DOWNSTREAM-LINK is raised. (R140) -/
  | linkTimerExpiry (dt : Nat)
  /-- The upstream neighbour raises HOLD, and no new return packet begins. (R144) -/
  | holdInputRises (dt : Nat)
  /-- The upstream neighbour lowers HOLD, and the next packet may begin. (R144) -/
  | holdInputFalls (dt : Nat)
  /-- The Upstream port begins a return packet chosen by the Return Arbiter, taking its own copy. (R144) -/
  | transmissionBegins (dt : Nat)
  /-- 200 µs pass since the last return packet began, and an IDLE is sent if nothing else is. (R145) -/
  | idleIntervalExpiry (dt : Nat)
  /-- A return packet ends, and its source is told: a pass-through packet leaves, a response slot frees, or a notice slot empties or takes its carry. (R147) -/
  | transmissionCompletion (dt : Nat) (cut : Mishap)
deriving DecidableEq, Repr

end Sys2Proof
end

