-- ==== Sys2Proof/Machine/Wire.lean ====
section
/-!
DEFINITION. Bytes on the lanes: byte order, the check word, the packet envelope and the rules by which a received
packet is intact (R203), and the packets the forward lane carries.
-/

namespace Sys2Proof.Machine

/-! ## Numbers as bytes, most significant first (00_scope.md section 3.5) -/

/-- One byte of a number. -/
def byteOf (n : Nat) : Byte := BitVec.ofNat 8 n

/-- A yes or no, 1 or 0 (R204). -/
def yesNo (b : Bool) : Byte := if b then 1 else 0

/-- A number in two bytes. -/
def bytes2 (n : Nat) : List Byte := [byteOf (n / 256), byteOf n]

/-- A number in three bytes. -/
def bytes3 (n : Nat) : List Byte := [byteOf (n / 65536), byteOf (n / 256), byteOf n]

/-- A two-byte field. -/
def wordBytes (w : Word) : List Byte := bytes2 w.toNat

/-- The number two bytes spell. -/
def num2 (hi lo : Byte) : Nat := hi.toNat * 256 + lo.toNat

/-- The two-byte field two bytes spell. -/
def word2 (hi lo : Byte) : Word := BitVec.ofNat 16 (num2 hi lo)

/-- A pixel's four bytes (R203). -/
def pixelBytes (p : PixelWord) : List Byte :=
  [byteOf (p.toNat / 16777216), byteOf (p.toNat / 65536), byteOf (p.toNat / 256), byteOf p.toNat]

/-- The pixel four bytes spell. -/
def pixelOf (a b c d : Byte) : PixelWord := BitVec.ofNat 32 (num2 a b * 65536 + num2 c d)

/-! ## The check word (R203) -/

/-- One bit of the division by x^16 + x^12 + x^5 + 1. -/
def crcBit (r : Word) : Word := if r.msb then (r <<< 1) ^^^ 0x1021 else r <<< 1

/-- One byte, most significant bit first. -/
def crcByte (r : Word) (b : Byte) : Word :=
  crcBit (crcBit (crcBit (crcBit (crcBit (crcBit (crcBit (crcBit (r ^^^ (b.zeroExtend 16 <<< 8)))))))))

/-- The CRC-16 of R203: initial value all ones, no reflection, no final inversion. -/
def crc16 (bs : List Byte) : Word := bs.foldl crcByte 0xFFFF

/-- The record check word of R207: the CRC-16 over the body words, each most significant byte first. -/
def crcWords (ws : List Word) : Word := crc16 (ws.flatMap wordBytes)

/-! ## Packets (R203) -/

/-- A packet: kind, length, fields, check word. -/
def packet (kind : Byte) (fields : List Byte) : List Byte :=
  let body := kind :: (bytes2 (5 + fields.length) ++ fields)
  body ++ wordBytes (crc16 body)

/-- The two lanes of a port. -/
inductive Lane where
  | forward | return
deriving DecidableEq, Repr

/-- Why a packet is dropped (R135, R143, R206). -/
inductive DropReason where
  | checkWord | length | overflow
deriving DecidableEq, Repr

/-- A byte of a packet, 0 past its end. -/
def byteAt (bs : List Byte) (i : Nat) : Byte := bs.getD i 0

/-- A two-byte field of a packet. -/
def numAt (bs : List Byte) (i : Nat) : Nat := num2 (byteAt bs i) (byteAt bs (i + 1))

/-- The check word at the packet's end is the CRC of what stands before it. -/
def checkWordMatches (bs : List Byte) : Bool :=
  decide (2 ≤ bs.length) && bs.drop (bs.length - 2) == wordBytes (crc16 (bs.take (bs.length - 2)))

/-- The length the packet's own kind and fields call for, where its kind is in the table of its lane (R203).
`none`: no relation beyond the range; `some none`: the fields admit no length. -/
def kindLength (lane : Lane) (bs : List Byte) : Option (Option Nat) :=
  match lane, (byteAt bs 0).toNat with
  | .forward, 0x00 => some (some 5)
  | .forward, 0x01 => some (some 11)
  | .forward, 0x02 => some (some (13 + 4 * numAt bs 9))
  | .forward, 0x03 => some (some 9)
  | .forward, 0x04 => let m := (byteAt bs 7).toNat; some (if m ≤ 60 then some (10 + m) else none)
  | .return, 0x10 => some (some 5)
  | .return, 0x11 => let r := (byteAt bs 8).toNat; some (if r ≤ 60 then some (11 + r) else none)
  | .return, 0x12 => some (some 17)
  | _, _ => none

/-- The length conditions of R203: the length field tells the bytes received, it lies in 5..4,096, and the kind's own
fields agree with it. -/
def lengthConsistent (lane : Lane) (bs : List Byte) : Bool :=
  numAt bs 1 == bs.length && decide (5 ≤ bs.length) && decide (bs.length ≤ 4096) &&
    match kindLength lane bs with
    | none => true
    | some none => false
    | some (some n) => n == bs.length

/-- Whether a received packet is intact (`none`), or the reason it is dropped with: the check word is tested first
(R135, R141, R203). -/
def dropReason (lane : Lane) (bs : List Byte) : Option DropReason :=
  if !checkWordMatches bs then some .checkWord
  else if !lengthConsistent lane bs then some .length
  else none

/-! ## The forward lane's own packets -/

/-- The codes of the request kinds: 1 to 39 in catalogue order (R205). -/
def ReqKind.all : List ReqKind :=
  [.openSession, .closeSession, .keep, .readStatus, .cursorSet, .cursorWrite, .cursorRead, .readTile, .openEdit,
   .setTile, .clearTile, .setFill, .checkEdit, .closeEdit, .abandonEdit, .selectContext, .selectSequence,
   .cancelSelect, .hold, .release, .beginTable, .endTable, .abandonTable, .setPort, .forcePattern, .setCadence,
   .readPort, .saveContext, .saveTable, .saveSettings, .restoreContext, .restoreTable, .deleteRecord, .compact,
   .eraseStore, .readStoreStatus, .setNoticeClass, .enumerate, .reset]

/-- The code byte of a request kind (R205). -/
def reqCode (k : ReqKind) : Byte := byteOf (ReqKind.all.idxOf k + 1)

/-- The request kind a code byte names, if any (R205). -/
def reqOf (b : Byte) : Option ReqKind := if b = 0 then none else ReqKind.all[b.toNat - 1]?

def idlePacket : List Byte := packet 0x00 []

def frameStartPacket (frame width height : Word) : List Byte :=
  packet 0x01 (wordBytes frame ++ wordBytes width ++ wordBytes height)

def linePacket (frame y x0 : Word) (pixels : List PixelWord) : List Byte :=
  packet 0x02 (wordBytes frame ++ wordBytes y ++ wordBytes x0 ++ bytes2 pixels.length ++ pixels.flatMap pixelBytes)

def frameEndPacket (frame runs : Word) : List Byte := packet 0x03 (wordBytes frame ++ wordBytes runs)

def controlPacket (kind : Byte) (c : Ctl) : List Byte :=
  packet 0x04 (c.dest :: c.key :: c.seq :: kind :: byteOf c.ops.length :: c.ops)

end Sys2Proof.Machine
end

