-- ==== Sys2Proof/WellFormed.lean ====
section
/-!
DEFINITION. Which terms of `Instr` the surroundings can send: what the types leave over. A packet command carries at
most 60 operand bytes, a run that fits a packet, and a received packet is intact or not as its command says.
-/

namespace Sys2Proof

open Machine

/-- A CONTROL packet's operand bytes are at most 60 (R151, R203). -/
def Ctl.wf (c : Ctl) : Bool := decide (c.ops.length ≤ 60)

/-- What a store device leaves in a bank stands at addresses of the bank. -/
def Mishap.wf (m : Mishap) : Bool := m.cells.all fun c => decide (c.1 < Config.bankWords)

/-- As `Mishap.wf`, for an access that may have gone well. -/
def faultWf : Option Mishap → Bool
  | none => true
  | some m => m.wf

/-- The commands the block can be sent. -/
def Instr.wf : Instr → Bool
  | .powerOn _ cut | .rstnLow _ cut | .transmissionCompletion _ cut => cut.wf
  | .releaseOfReset _ | .startupScan _ | .startupRecordLoad _ | .startupLoadCompletion _ => true
  | .startupBankChoice _ fault | .saveCompletion _ fault | .deleteCompletion _ fault | .compactCompletion _ fault
  | .eraseStoreCompletion _ fault => faultWf fault
  | .startupTidy _ faults => faults.all fun c => decide (c.1 < Config.bankWords)
  | .forwardPacketDropped _ bytes => (dropReason .forward bytes).isSome
  | .returnPacketDropped _ bytes => (dropReason .return bytes).isSome
  | .line _ _ _ _ pixels => decide (13 + 4 * pixels.length ≤ 4096)
  | .frameStart _ _ _ _ | .frameEnd _ _ _ | .idle _ => true
  | .forwardUnknownKind _ bytes => (dropReason .forward bytes).isNone && decide (4 < (byteAt bytes 0).toNat)
  | .returnPacket _ bytes => (dropReason .return bytes).isNone && byteAt bytes 0 != 0x10
  | .unknownRequest _ kind c => (reqOf kind).isNone && c.wf
  | .controlNotAddressed _ _ c => c.wf
  | .openSession _ c | .closeSession _ c | .keep _ c | .readStatus _ c | .cursorSet _ c | .cursorWrite _ c
  | .cursorRead _ c | .readTile _ c | .openEdit _ c | .setTile _ c | .clearTile _ c | .setFill _ c | .checkEdit _ c
  | .closeEdit _ c | .abandonEdit _ c | .selectContext _ c | .selectSequence _ c | .cancelSelect _ c | .hold _ c
  | .release _ c | .beginTable _ c | .endTable _ c | .abandonTable _ c | .setPort _ c | .forcePattern _ c
  | .setCadence _ c | .readPort _ c | .saveContext _ c | .saveTable _ c | .saveSettings _ c | .restoreContext _ c
  | .restoreTable _ c | .deleteRecord _ c | .compact _ c | .eraseStore _ c | .readStoreStatus _ c
  | .setNoticeClass _ c | .enumerate _ c | .reset _ c => c.wf
  | .restoreContextCompletion _ | .restoreTableCompletion _ | .leaseExpiry _ _ | .signalTimerExpiry _
  | .lineGapTimerExpiry _ | .acquisitionTimerExpiry _ | .holdoverDeadlineExpiry _ | .lossTimerExpiry _
  | .readyRises _ _ | .readyFalls _ _ | .transferCompletion _ _ | .stallTimerExpiry _ _ | .cadenceExpiry _
  | .generatedLinePlaced _ _ | .returnReceptionBegins _ | .returnIdle _ | .linkTimerExpiry _ | .holdInputRises _
  | .holdInputFalls _ | .transmissionBegins _ | .idleIntervalExpiry _ => true

end Sys2Proof
end

