-- ==== Sys2Proof/Decode.lean ====
section
/-!
DEFINITION. Reading commands. The opcode table gives bits to no row, so `decodeTableWord` names no command. What the
block does decode are packets: `decodeForward` reads the bytes received on the forward lane as the command they are,
by the integrity rules of R203 and the classification of R136, and `forwardPacket` writes a command's packet.
-/

namespace Sys2Proof

open Machine

/-- The command a table word spells: none, since no row of spec/opcode_table.json is given bits. -/
def decodeTableWord (_nbits _w : Nat) : Option Instr := none

/-- The command of a request kind. -/
def requestInstr (dt : Nat) (c : Ctl) : ReqKind → Instr
  | .openSession => .openSession dt c
  | .closeSession => .closeSession dt c
  | .keep => .keep dt c
  | .readStatus => .readStatus dt c
  | .cursorSet => .cursorSet dt c
  | .cursorWrite => .cursorWrite dt c
  | .cursorRead => .cursorRead dt c
  | .readTile => .readTile dt c
  | .openEdit => .openEdit dt c
  | .setTile => .setTile dt c
  | .clearTile => .clearTile dt c
  | .setFill => .setFill dt c
  | .checkEdit => .checkEdit dt c
  | .closeEdit => .closeEdit dt c
  | .abandonEdit => .abandonEdit dt c
  | .selectContext => .selectContext dt c
  | .selectSequence => .selectSequence dt c
  | .cancelSelect => .cancelSelect dt c
  | .hold => .hold dt c
  | .release => .release dt c
  | .beginTable => .beginTable dt c
  | .endTable => .endTable dt c
  | .abandonTable => .abandonTable dt c
  | .setPort => .setPort dt c
  | .forcePattern => .forcePattern dt c
  | .setCadence => .setCadence dt c
  | .readPort => .readPort dt c
  | .saveContext => .saveContext dt c
  | .saveTable => .saveTable dt c
  | .saveSettings => .saveSettings dt c
  | .restoreContext => .restoreContext dt c
  | .restoreTable => .restoreTable dt c
  | .deleteRecord => .deleteRecord dt c
  | .compact => .compact dt c
  | .eraseStore => .eraseStore dt c
  | .readStoreStatus => .readStoreStatus dt c
  | .setNoticeClass => .setNoticeClass dt c
  | .enumerate => .enumerate dt c
  | .reset => .reset dt c

/-- The kinds a broadcast executes (R155). -/
def ReqKind.broadcasts (k : ReqKind) : Bool :=
  k ∈ [.selectContext, .selectSequence, .cancelSelect, .hold, .release, .forcePattern, .setCadence]

/-- The command of an intact CONTROL packet at a cabinet of this address, by its destination (R136). -/
def controlInstr (dt : Nat) (address : Byte) (kind : Byte) (c : Ctl) : Instr :=
  let elsewhere := Instr.controlNotAddressed dt kind c
  if c.dest = 255 then
    match reqOf kind with
    | some k => if k.broadcasts then requestInstr dt c k else elsewhere
    | none => elsewhere
  else if c.dest = 0 then
    if reqOf kind = some .enumerate then .enumerate dt c else elsewhere
  else if c.dest = address then
    match reqOf kind with
    | some k => requestInstr dt c k
    | none => .unknownRequest dt kind c
  else elsewhere

/-- The pixels of a LINE's field bytes, four bytes each. -/
def pixelsOf : List Byte → List PixelWord
  | a :: b :: c :: d :: rest => pixelOf a b c d :: pixelsOf rest
  | _ => []

/-- The command that bytes received on the forward lane are, at a cabinet of this address (R135, R136, R203). -/
def decodeForward (dt : Nat) (address : Byte) (bytes : List Byte) : Instr :=
  if (dropReason .forward bytes).isSome then .forwardPacketDropped dt bytes
  else
    let fields := (bytes.take (bytes.length - 2)).drop 3
    match (byteAt bytes 0).toNat with
    | 0 => .idle dt
    | 1 => .frameStart dt (word2 (byteAt bytes 3) (byteAt bytes 4)) (word2 (byteAt bytes 5) (byteAt bytes 6))
             (word2 (byteAt bytes 7) (byteAt bytes 8))
    | 2 => .line dt (word2 (byteAt bytes 3) (byteAt bytes 4)) (word2 (byteAt bytes 5) (byteAt bytes 6))
             (word2 (byteAt bytes 7) (byteAt bytes 8)) (pixelsOf (fields.drop 8))
    | 3 => .frameEnd dt (word2 (byteAt bytes 3) (byteAt bytes 4)) (word2 (byteAt bytes 5) (byteAt bytes 6))
    | 4 => controlInstr dt address (byteAt bytes 6)
             ⟨byteAt bytes 3, byteAt bytes 4, byteAt bytes 5, fields.drop 5⟩
    | _ => .forwardUnknownKind dt bytes

/-- The request kind of a request command. -/
def Instr.request : Instr → Option (ReqKind × Ctl)
  | .openSession _ c => some (.openSession, c)
  | .closeSession _ c => some (.closeSession, c)
  | .keep _ c => some (.keep, c)
  | .readStatus _ c => some (.readStatus, c)
  | .cursorSet _ c => some (.cursorSet, c)
  | .cursorWrite _ c => some (.cursorWrite, c)
  | .cursorRead _ c => some (.cursorRead, c)
  | .readTile _ c => some (.readTile, c)
  | .openEdit _ c => some (.openEdit, c)
  | .setTile _ c => some (.setTile, c)
  | .clearTile _ c => some (.clearTile, c)
  | .setFill _ c => some (.setFill, c)
  | .checkEdit _ c => some (.checkEdit, c)
  | .closeEdit _ c => some (.closeEdit, c)
  | .abandonEdit _ c => some (.abandonEdit, c)
  | .selectContext _ c => some (.selectContext, c)
  | .selectSequence _ c => some (.selectSequence, c)
  | .cancelSelect _ c => some (.cancelSelect, c)
  | .hold _ c => some (.hold, c)
  | .release _ c => some (.release, c)
  | .beginTable _ c => some (.beginTable, c)
  | .endTable _ c => some (.endTable, c)
  | .abandonTable _ c => some (.abandonTable, c)
  | .setPort _ c => some (.setPort, c)
  | .forcePattern _ c => some (.forcePattern, c)
  | .setCadence _ c => some (.setCadence, c)
  | .readPort _ c => some (.readPort, c)
  | .saveContext _ c => some (.saveContext, c)
  | .saveTable _ c => some (.saveTable, c)
  | .saveSettings _ c => some (.saveSettings, c)
  | .restoreContext _ c => some (.restoreContext, c)
  | .restoreTable _ c => some (.restoreTable, c)
  | .deleteRecord _ c => some (.deleteRecord, c)
  | .compact _ c => some (.compact, c)
  | .eraseStore _ c => some (.eraseStore, c)
  | .readStoreStatus _ c => some (.readStoreStatus, c)
  | .setNoticeClass _ c => some (.setNoticeClass, c)
  | .enumerate _ c => some (.enumerate, c)
  | .reset _ c => some (.reset, c)
  | _ => none

/-- The bytes of a command that is a forward-lane packet (R203). -/
def forwardPacket (i : Instr) : Option (List Byte) :=
  match i with
  | .forwardPacketDropped _ bytes => some bytes
  | .frameStart _ f w h => some (frameStartPacket f w h)
  | .line _ f y x0 px => some (linePacket f y x0 px)
  | .frameEnd _ f n => some (frameEndPacket f n)
  | .idle _ => some idlePacket
  | .forwardUnknownKind _ bytes => some bytes
  | .controlNotAddressed _ kind c => some (controlPacket kind c)
  | .unknownRequest _ kind c => some (controlPacket kind c)
  | _ => i.request.map fun p => controlPacket (reqCode p.1) p.2

end Sys2Proof
end

