-- ==== Sys2Proof/Machine/State.lean ====
section
/-!
DEFINITION. The state of the TDC-8 as plain data, block by block (00_scope.md section 2.1), the outcomes' reasons, and
the state after reset. A timer is the time of its deadline, or `none` while it is stopped (log 1).
-/

namespace Sys2Proof.Machine

/-- Why a command stops the block: nothing does. Every error the manual describes is answered, noticed or dropped, and
the block goes on; the type has no constructor, so no claim can lean on a stop. Safe. -/
inductive Fault where
deriving DecidableEq, Repr

/-- Why a command has no meaning in the model. -/
inductive Refusal where
  /-- Raised by an arm of `exec` whose command has no meaning yet; no arm is left so. Safe: nothing is claimed of it. -/
  | notModelled (mnemonic : String)
deriving DecidableEq, Repr

/-! ## The tile map (chapter 1) -/

/-- Three channel values: a fill colour 0..4095 each (R3), or an outgoing pixel. -/
structure Rgb where
  c0 : Nat
  c1 : Nat
  c2 : Nat
deriving DecidableEq, Repr

/-- A tile entry (R1). -/
structure Tile where
  port    : Fin 8
  pos     : Fin 8
  x       : Nat
  y       : Nat
  w       : Nat
  h       : Nat
  mirrorH : Bool
  mirrorV : Bool
  table   : Fin 8
  bright  : Nat
deriving DecidableEq, Repr

/-- The 32 slots of a tile table, each unused or an entry (R1). -/
abbrev TileTable := Vector (Option Tile) 32

/-- The status of a context (R4). -/
inductive CtxStatus where
  | blank | opened | ready
deriving DecidableEq, Repr

/-- The status a context had before OPEN-EDIT (R4, R18). -/
inductive PriorStatus where
  | blank | ready
deriving DecidableEq, Repr

/-- The validation checks (R10). -/
inductive Reason where
  | range | duplicatePosition | gap | portBudget
deriving DecidableEq, Repr

/-- A validation result (R10). -/
inductive Validation where
  | ok
  | failed (reason : Reason) (slot : Nat)
deriving DecidableEq, Repr

/-- A context (R3). -/
structure Context where
  status : CtxStatus
  table  : TileTable
  fill   : Rgb
deriving DecidableEq, Repr

/-! ## The Map Store (chapter 2) -/

/-- The edit buffer while it is owned (R18). A free buffer is `none`, which stands for all its free values. -/
structure EditBuffer where
  owner  : Byte
  target : Fin 4
  prior  : PriorStatus
  table  : TileTable
  fill   : Rgb
  result : Option Validation
deriving DecidableEq, Repr

/-- An entry of a SEQUENCE: a context and a repeat count 1..255 (R28). -/
structure SeqEntry where
  ctx   : Fin 4
  count : Nat
deriving DecidableEq, Repr

/-- What a switch part, or a saved start selection, asks for (R34, R110). -/
inductive Target where
  | context (c : Fin 4)
  | sequence (es : List SeqEntry)
deriving DecidableEq, Repr

/-- The active selection (R28). -/
inductive Selection where
  | none
  | context (c : Fin 4)
  | sequence (es : List SeqEntry) (index remaining : Nat)
deriving DecidableEq, Repr

/-- The issuer of a switch part (R29). -/
inductive Issuer where
  | session (key : Byte)
  | sessionless
  | broadcast
deriving DecidableEq, Repr

/-- The switch part of the pending change set (R34). -/
structure SwitchPart where
  target    : Target
  notBefore : Option Word
  issuer    : Issuer
deriving DecidableEq, Repr

/-- The Map Store. -/
structure MapStore where
  contexts  : Vector Context 4
  edit      : Option EditBuffer
  selection : Selection
  switch    : Option SwitchPart
  install   : Option (Fin 8)
  hold      : Bool
deriving DecidableEq, Repr

/-! ## The Correction Unit (chapter 4) -/

/-- The content of a correction table: entry `1024 * curve + index`, where it differs from the identity (R68). -/
abbrev Curves := Cells Nat

/-- The staging area (R70). Free stands for its free values. -/
inductive Staging where
  | free
  | owned (key : Byte) (target : Fin 8) (curves : Curves)
  | held (target : Fin 8) (curves : Curves)
deriving DecidableEq, Repr

/-- The Correction Unit. -/
structure CorrectionUnit where
  tables  : Vector Curves 8
  staging : Staging
deriving DecidableEq, Repr

/-! ## The Frame Tracker (chapter 3) -/

/-- The lock states (R44). -/
inductive LockState where
  | noSignal | acquiring | locked | holdover | lost
deriving DecidableEq, Repr

/-- A set of damage reasons (R44). -/
structure Damage where
  range     : Bool
  order     : Bool
  lostRuns  : Bool
  truncated : Bool
deriving DecidableEq, Repr

/-- How a frame closed (R55). -/
inductive CloseOutcome where
  | complete | damaged
deriving DecidableEq, Repr

/-- The frame now open (R44). -/
structure OpenFrame where
  number : Word
  width  : Nat
  height : Nat
deriving DecidableEq, Repr

/-- The Frame Tracker (R44). The frame state is BLANKING exactly while `frame` is `none`. -/
structure Tracker where
  frame       : Option OpenFrame
  lastLine    : Option Nat
  lastEnd     : Nat
  runs        : Nat
  damage      : Damage
  lock        : LockState
  regular     : Nat
  lastOpen    : Option Nat
  lastClose   : Option CloseOutcome
  measured    : Option Nat
  reference   : Option Nat
  lastNumber  : Word
  opened      : Word
  damagedCount : Word
  signal      : Option Nat
  lineGap     : Option Nat
  acquisition : Option Nat
  holdover    : Option Nat
  loss        : Option Nat
deriving DecidableEq, Repr

/-! ## The Tile Engine (chapter 4) -/

/-- The frame map (R76, R77): tiles with their slot numbers, in slot order. -/
structure FrameMap where
  number  : Word
  width   : Nat
  height  : Nat
  tiles   : List (Nat × Tile)
  fill    : Rgb
  enabled : Vector Bool 8
deriving DecidableEq, Repr

/-- The row of one tile at the completion front: its slot and, for each tile column, the output value received. -/
structure RowProgress where
  slot : Nat
  cols : List (Option Rgb)
deriving DecidableEq, Repr

/-- The Tile Engine's work on a frame in progress (R76). A tile without an entry in `rows` has received nothing. -/
structure Work where
  map   : FrameMap
  front : Nat
  rows  : List RowProgress
deriving DecidableEq, Repr

/-! ## The tile ports (chapter 5) -/

/-- The loss policies (R86). -/
inductive LossPolicy where
  | dark | fill | pattern
deriving DecidableEq, Repr

/-- The patterns (R86). -/
inductive Pattern where
  | solid | bars | ramp | grid
deriving DecidableEq, Repr

/-- A port's configuration (R86). -/
structure PortConfig where
  enabled : Bool
  loss    : LossPolicy
  pattern : Pattern
  forced  : Option Pattern
deriving DecidableEq, Repr

/-- The kinds of tile row (R82). The rows a port generates (R99) carry a kind of their own, which no rule names: a DESIGN
CHOICE (log 44). -/
inductive RowKind where
  | full | patched | filled | generated
deriving DecidableEq, Repr

/-- A tile row as a port line carries it (R85). -/
structure TileRow where
  slot   : Nat
  pos    : Nat
  index  : Nat
  kind   : RowKind
  pixels : List Rgb
deriving DecidableEq, Repr

/-- Which tally record a queued trunk line's rows are counted in (log 14): the current frame's, the last frame's, or
none because they were counted at the retirement of their record (R94). -/
inductive Age where
  | current | last | retired
deriving DecidableEq, Repr

/-- What a port line is (R90): a trunk line of a frame, or a line of a policy or a pattern frame (log 15). -/
inductive LineSource where
  | trunk (frame : Word) (age : Age)
  | policy
  | pattern
deriving DecidableEq, Repr

/-- A port line (R85, R99). -/
structure PortLine where
  source : LineSource
  y      : Nat
  rows   : List TileRow
deriving DecidableEq, Repr

/-- A tally record (R94). -/
structure Tally where
  frame     : Word
  queued    : Nat
  delivered : Nat
  dropped   : Nat
deriving DecidableEq, Repr

/-- A generated frame in progress: its fixed copy and the first raster line not yet placed (R99). -/
structure GenFrame where
  policy : Bool
  kind   : Pattern
  tiles  : List (Nat × Tile)
  fill   : Rgb
  nextY  : Nat
deriving DecidableEq, Repr

/-- A tile port. -/
structure Port where
  config         : PortConfig
  queue          : List PortLine
  transferring   : Bool
  ready          : Bool
  stallTimer     : Option Nat
  stalled        : Bool
  releasePending : Bool
  gen            : Option GenFrame
  current        : Option Tally
  last           : Option Tally
  genCount       : Word
deriving DecidableEq, Repr

/-! ## Sessions, responses and notices (chapters 8 and 9) -/

/-- The status codes (R175), in the order of its table. -/
inductive Status where
  | ok | badOperand | notOwner | locked | inUse | notReady | validateFail | notFound | busy | inProgress
  | outOfSequence | noSession | unknownRequest | starting | noCursor | storeFull | writeFault | checkFail | noAddress
deriving DecidableEq, Repr

/-- A session's cached response (R160). -/
structure Cached where
  kind    : Byte
  seq     : Byte
  status  : Status
  results : List Byte
deriving DecidableEq, Repr

/-- The target of a cursor (R169). -/
inductive CursorTarget where
  | staging
  | table (t : Fin 8)
deriving DecidableEq, Repr

/-- A cursor (R169): its position counts the entries before it, so 3072 is END. -/
structure Cursor where
  target : CursorTarget
  pos    : Nat
deriving DecidableEq, Repr

/-- READY with a running lease and a cached response, or WAITING with the lease time held, the in-flight request and
the response slot it reserved (R157, R166). -/
inductive SessionState where
  | ready (leaseEnd : Nat) (cache : Cached)
  | waiting (leaseHeld : Nat) (kind : ReqKind) (seq : Byte) (slot : Fin 8)
deriving DecidableEq, Repr

/-- A session slot that is not FREE (R157). -/
structure Session where
  key    : Byte
  lease  : Nat
  last   : Byte
  cursor : Option Cursor
  state  : SessionState
deriving DecidableEq, Repr

/-- A response (R176). -/
structure Response where
  source  : Byte
  key     : Byte
  seq     : Byte
  kind    : Byte
  status  : Status
  results : List Byte
deriving DecidableEq, Repr

/-- A slot of the response queue (R176). -/
inductive RqSlot where
  | free
  | reserved (key seq kind : Byte)
  | filled (r : Response)
deriving DecidableEq, Repr

/-- The response queue (R176). -/
structure ResponseQueue where
  slots : Vector RqSlot 8
  order : List (Fin 8)
deriving DecidableEq, Repr

/-- The two banks (R106). -/
inductive BankId where
  | A | B
deriving DecidableEq, Repr

/-- The thirteen record keys (R110). -/
inductive RecKey where
  | settings
  | context (c : Fin 4)
  | table (t : Fin 8)
deriving DecidableEq, Repr

/-- The reasons of STORE-FAULT (R206). -/
inductive StoreFaultReason where
  | writeFault | checkFail | badContent | scanEnded
deriving DecidableEq, Repr

/-- Why CONTEXT-LOAD-FAILED is raised (R206). -/
inductive LoadFailure where
  | validation (reason : Reason) (slot : Nat)
  | checkFail
  | startSelection
deriving DecidableEq, Repr

/-- The sixteen notice kinds (R179), in the order of its table. -/
inductive NoticeKind where
  | frameLockChanged | frameDamaged | geometryMismatch | portOverrun | portStalled | changeApplied | switchSuperseded
  | editAbandoned | sessionExpired | storeFault | storeNearlyFull | startupComplete | trunkIntegrity | downstreamLink
  | contextLoadFailed | addressAssigned
deriving DecidableEq, Repr

/-- The detail of one raise (R179). -/
inductive Detail where
  | lockChanged (old new : LockState) (last : Word)
  | frameDamaged (frame : Word) (reasons : Damage)
  | badGeometry (frame : Word)
  | geometryMismatch (frame : Word) (slot : Nat)
  | portOverrun (port : Fin 8) (frame : Word) (y : Nat)
  | portStalled (port : Fin 8) (lines : Nat) (head : Option Word)
  | changeApplied (frame : Word) (context : Option (Fin 4)) (table : Option (Fin 8))
  | switchSuperseded (old new : Issuer) (sequence : Bool)
  | bufferAbandoned (soft : Bool) (target : Fin 4) (prior : PriorStatus) (key : Byte)
  | stagingAbandoned (soft : Bool) (target : Fin 8) (key : Byte)
  | sessionExpired (key : Byte) (slot : Fin 4) (last : Byte)
  | storeFault (reason : StoreFaultReason) (bank : BankId) (addr : Nat) (key : Option RecKey)
  | storeNearlyFull (free : Nat) (key : Option RecKey)
  | startupComplete (bank : BankId) (generation : Word) (contexts : Vector Bool 4) (tables : Vector Bool 8)
  | trunkIntegrity (lane : Lane) (reason : DropReason) (kind : Byte)
  | downstreamLink (up : Bool)
  | contextLoadFailed (context : Fin 4) (why : LoadFailure)
  | addressAssigned (taken before : Byte)
deriving DecidableEq, Repr

/-- The raises gathered during a slot's own transmission (R186). -/
structure Carry where
  count  : Nat
  first  : Detail
  latest : Detail
deriving DecidableEq, Repr

/-- A PENDING notice slot (R180). -/
structure Pending where
  count   : Nat
  first   : Detail
  latest  : Detail
  sending : Bool
  carry   : Option Carry
deriving DecidableEq, Repr

/-- A notice slot (R180): EMPTY while `body` is `none`. -/
structure NoticeSlot where
  cls  : Fin 4
  body : Option Pending
deriving DecidableEq, Repr

/-- The notice slots and the pending list (R180). -/
structure Notices where
  slots : Vector NoticeSlot 16
  list  : List NoticeKind
deriving DecidableEq, Repr

/-! ## The Record Store (chapter 6) -/

/-- A directory entry (R111). -/
structure DirEntry where
  addr : Nat
  len  : Nat
  bad  : Bool
deriving DecidableEq, Repr

/-- The operation in flight (R111). `addr` is the append point a save was accepted at, `body` the words a save writes
or the working copy of a restore. `attached` is cleared by a SOFT reset, which ends the session it came from (R128,
R168). -/
structure Operation where
  kind     : ReqKind
  recKey   : Option RecKey
  session  : Byte
  slot     : Fin 4
  attached : Bool
  addr     : Nat
  body     : List Word
deriving DecidableEq, Repr

/-- The steps of the start-up load (R129 to R133): header reads, scan, loading of the keys that remain, tidying, and
done but not yet reported. -/
inductive LoadStep where
  | headers
  | scan
  | records (todo : List RecKey)
  | report
deriving DecidableEq, Repr

/-- The start-up load in progress. `skipScan` is set when bank A could not be made active (R129). -/
structure Load where
  step     : LoadStep
  skipScan : Bool
  stale    : List Nat
  start    : Option Target
  tables   : Vector Bool 8
deriving DecidableEq, Repr

/-- The Record Store (R106, R111). -/
structure RecordStore where
  bankA      : Cells Word
  bankB      : Cells Word
  active     : BankId
  generation : Word
  append     : Nat
  full       : Bool
  directory  : Vector (Option DirEntry) 13
  op         : Option Operation
  load       : Option Load
deriving DecidableEq, Repr

/-! ## The trunk link (chapter 7) -/

/-- The turn flag (R146). -/
inductive Turn where
  | toLocal | toPass
deriving DecidableEq, Repr

/-- Where the packet in transmission came from (R147): `detached` when a SOFT reset took its response away (R178). -/
inductive SendSource where
  | response (slot : Fin 8)
  | notice (kind : NoticeKind)
  | pass
  | idle
  | detached
deriving DecidableEq, Repr

/-- A return-lane transmission in progress: its source and the Upstream port's copy (R144). -/
structure Sending where
  source : SendSource
  bytes  : List Byte
deriving DecidableEq, Repr

/-- The Upstream port's return lane and the Return Arbiter (R144 to R147). -/
structure Uplink where
  sending   : Option Sending
  holdIn    : Bool
  idleTimer : Option Nat
  idleDue   : Bool
  turn      : Turn
deriving DecidableEq, Repr

/-- The Downstream port (R140 to R143). -/
structure Downlink where
  up        : Bool
  linkTimer : Option Nat
  buffer    : List (List Byte)
  receiving : Bool
deriving DecidableEq, Repr

/-! ## The block -/

/-- The device phase (R190). -/
inductive Phase where
  | starting | running
deriving DecidableEq, Repr

/-- What a command puts on the part's outputs (log 4). -/
inductive Output where
  /-- a packet sent on the downstream forward lane (R138) -/
  | forward (bytes : List Byte)
  /-- a return-lane packet begun on the upstream port (R144) -/
  | upstream (bytes : List Byte)
  /-- a port line whose transfer to the chain starts (R90) -/
  | chain (port : Fin 8) (line : PortLine)
deriving DecidableEq, Repr

/-- The state of the block. `now`, `held`, `resetAt`, `out` and `pending` are described in INVENTORY.md. -/
structure State where
  now        : Nat
  held       : Bool
  phase      : Phase
  address    : Byte
  fullReset  : Option (Fin 8)
  resetAt    : Option Nat
  sessions   : Vector (Option Session) 4
  rq         : ResponseQueue
  ns         : Notices
  ms         : MapStore
  cu         : CorrectionUnit
  ft         : Tracker
  te         : Option Work
  ports      : Vector Port 8
  cadence    : Nat
  cadenceTimer : Option Nat
  rs         : RecordStore
  up         : Uplink
  dn         : Downlink
  out        : List Output
  pending    : List Instr
deriving DecidableEq, Repr

/-! ## The values after reset -/

def Rgb.black : Rgb := ⟨0, 0, 0⟩

/-- R17. -/
def Context.initial : Context := ⟨.blank, Vector.replicate 32 none, Rgb.black⟩

/-- R17, R18, R28, R34. -/
def MapStore.initial : MapStore :=
  { contexts := Vector.replicate 4 Context.initial, edit := none, selection := .none, switch := none, install := none,
    hold := false }

/-- R68, R70. -/
def CorrectionUnit.initial : CorrectionUnit := ⟨Vector.replicate 8 [], .free⟩

def Damage.empty : Damage := ⟨false, false, false, false⟩

/-- R44. -/
def Tracker.initial : Tracker :=
  { frame := none, lastLine := none, lastEnd := 0, runs := 0, damage := Damage.empty, lock := .noSignal, regular := 0,
    lastOpen := none, lastClose := none, measured := none, reference := none, lastNumber := 0, opened := 0,
    damagedCount := 0, signal := none, lineGap := none, acquisition := none, holdover := none, loss := none }

/-- R86, R104, with the READY line at a level (a pin, which no reset sets). -/
def Port.initial (ready : Bool) : Port :=
  { config := ⟨true, .dark, .solid, none⟩, queue := [], transferring := false, ready := ready, stallTimer := none,
    stalled := false, releasePending := false, gen := none, current := none, last := none, genCount := 0 }

/-- R176. -/
def ResponseQueue.initial : ResponseQueue := ⟨Vector.replicate 8 .free, []⟩

/-- The default classes of R179, in the order of its table. -/
def Notices.initial : Notices :=
  { slots := #v[⟨1, none⟩, ⟨2, none⟩, ⟨2, none⟩, ⟨1, none⟩, ⟨1, none⟩, ⟨2, none⟩, ⟨1, none⟩, ⟨1, none⟩,
                ⟨1, none⟩, ⟨0, none⟩, ⟨2, none⟩, ⟨0, none⟩, ⟨1, none⟩, ⟨1, none⟩, ⟨0, none⟩, ⟨0, none⟩]
    list := [] }

/-- The start-up load at its first step (R198 step 3). -/
def Load.initial : Load :=
  { step := .headers, skipScan := false, stale := [], start := none, tables := Vector.replicate 8 false }

/-- The Record Store as the start-up load finds it, with the banks' nonvolatile contents. The other items are set by
the load; before it they hold the values of log 7 (DESIGN CHOICE, unsafe). -/
def RecordStore.initial (bankA bankB : Cells Word) : RecordStore :=
  { bankA := bankA, bankB := bankB, active := .A, generation := 1, append := Config.firstRecord, full := false,
    directory := Vector.replicate 13 none, op := none, load := some Load.initial }

/-- R145, R146, R148, with the HOLD input at a level (a pin) and the IDLE interval started at time `now`. -/
def Uplink.initial (holdIn : Bool) (now : Nat) : Uplink :=
  { sending := none, holdIn := holdIn, idleTimer := some (now + Config.idleInterval), idleDue := false,
    turn := .toLocal }

/-- R140, R142, R143, R148. -/
def Downlink.initial : Downlink := ⟨false, none, [], false⟩

/-- The block right after the release of reset (R198 step 1 to 3): time 0, both banks erased (log 6), the pins at the
levels of log 5, the cadence timer started with code 5, period 16,666 microseconds (R97). -/
def State.reset : State :=
  { now := 0, held := false, phase := .starting, address := 0, fullReset := none, resetAt := none,
    sessions := Vector.replicate 4 none, rq := ResponseQueue.initial, ns := Notices.initial,
    ms := MapStore.initial, cu := CorrectionUnit.initial, ft := Tracker.initial, te := none,
    ports := Vector.replicate 8 (Port.initial Config.readyAtReset), cadence := 5, cadenceTimer := some 16666,
    rs := RecordStore.initial [] [], up := Uplink.initial Config.holdInAtReset 0, dn := Downlink.initial,
    out := [], pending := [] }

end Sys2Proof.Machine
end

