-- ==== Sys2Proof/Machine/Memory.lean ====
section
/-!
DEFINITION. Addressed storage in its canonical form: addresses rising, no entry equal to what an unlisted address reads
as. The correction curves read as the identity where unlisted (R68), the words of a bank as erased (R207).
-/

namespace Sys2Proof.Machine

/-- What stands at an address. -/
def cellRead {α : Type} (dflt : Nat → α) : Cells α → Nat → α
  | [], a => dflt a
  | (b, v) :: m, a => if a < b then dflt a else if a = b then v else cellRead dflt m a

/-- A write that keeps the canonical form. -/
def cellWrite {α : Type} [DecidableEq α] (dflt : Nat → α) (a : Nat) (v : α) : Cells α → Cells α
  | [] => if v = dflt a then [] else [(a, v)]
  | (b, u) :: m =>
    if a < b then (if v = dflt a then (b, u) :: m else (a, v) :: (b, u) :: m)
    else if a = b then (if v = dflt a then m else (a, v) :: m)
    else (b, u) :: cellWrite dflt a v m

/-- Values written one after another from an address. -/
def cellWriteList {α : Type} [DecidableEq α] (dflt : Nat → α) (a : Nat) : List α → Cells α → Cells α
  | [], m => m
  | v :: vs, m => cellWriteList dflt (a + 1) vs (cellWrite dflt a v m)

/-- `n` values read from an address. -/
def cellReadList {α : Type} (dflt : Nat → α) (m : Cells α) (a : Nat) : Nat → List α
  | 0 => []
  | n + 1 => cellRead dflt m a :: cellReadList dflt m (a + 1) n

/-- The canonical form, from a least address on. -/
def cellsFrom {α : Type} [DecidableEq α] (dflt : Nat → α) : Nat → Cells α → Bool
  | _, [] => true
  | low, (a, v) :: m => decide (low ≤ a) && decide (v ≠ dflt a) && cellsFrom dflt (a + 1) m

/-- The canonical form. -/
def Memory.wf {α : Type} [DecidableEq α] (dflt : Nat → α) (m : Cells α) : Bool := cellsFrom dflt 0 m

/-- Any list of cells put into canonical form. -/
def cellsOf {α : Type} [DecidableEq α] (dflt : Nat → α) (cs : Cells α) : Cells α :=
  cs.foldl (fun m c => cellWrite dflt c.1 c.2 m) []

/-! ## The banks -/

/-- An erased word (R207). -/
def erased : Nat → Word := fun _ => 0xFFFF

/-- A word of a bank. -/
def bankRead (b : Cells Word) (a : Nat) : Word := cellRead erased b a

/-! ## The correction curves -/

/-- The identity content: entry `1024 * curve + i` is 4 i + floor(i / 256) (R68). -/
def identityEntry (k : Nat) : Nat := 4 * (k % 1024) + (k % 1024) / 256

/-- An entry of a curve (R68). -/
def curveEntry (t : Curves) (k : Nat) : Nat := cellRead identityEntry t k

/-- Entries of the curves written from a position on (R170). -/
def curveWrite (k : Nat) (vs : List Nat) (t : Curves) : Curves := cellWriteList identityEntry k vs t

/-- Curves of 3072 given entries. -/
def curvesOf (vs : List Nat) : Curves := curveWrite 0 vs []

/-! ## Vectors -/

/-- An element of a vector replaced. -/
def upd {α : Type} {n : Nat} (v : Vector α n) (i : Fin n) (x : α) : Vector α n := v.set i.1 x i.2

end Sys2Proof.Machine
end

