-- ==== Sys2Proof/Machine/Codes.lean ====
section
/-!
DEFINITION. The numeric codes of chapter 12: a named value is sent as its position in its rule's list (R204), with the
tables of R205 to R207.
-/

namespace Sys2Proof.Machine

/-- R175, R205. -/
def statusCode : Status → Byte
  | .ok => 0 | .badOperand => 1 | .notOwner => 2 | .locked => 3 | .inUse => 4 | .notReady => 5 | .validateFail => 6
  | .notFound => 7 | .busy => 8 | .inProgress => 9 | .outOfSequence => 10 | .noSession => 11 | .unknownRequest => 12
  | .starting => 13 | .noCursor => 14 | .storeFull => 15 | .writeFault => 16 | .checkFail => 17 | .noAddress => 18

/-- R205. -/
def reasonCode : Reason → Byte
  | .range => 1 | .duplicatePosition => 2 | .gap => 3 | .portBudget => 4

/-- R205. -/
def lockCode : LockState → Byte
  | .noSignal => 0 | .acquiring => 1 | .locked => 2 | .holdover => 3 | .lost => 4

/-- R4. -/
def ctxStatusCode : CtxStatus → Byte
  | .blank => 0 | .opened => 1 | .ready => 2

/-- R18, R206. -/
def priorCode : PriorStatus → Byte
  | .blank => 0 | .ready => 1

/-- The status an OPEN context returns to (R27). -/
def PriorStatus.status : PriorStatus → CtxStatus
  | .blank => .blank | .ready => .ready

/-- R106. -/
def bankCode : BankId → Byte
  | .A => 0 | .B => 1

/-- The thirteen keys in key index order (R206). -/
def RecKey.all : List RecKey :=
  [.settings, .context 0, .context 1, .context 2, .context 3,
   .table 0, .table 1, .table 2, .table 3, .table 4, .table 5, .table 6, .table 7]

/-- A key's place in the directory: its key index less one (R206). -/
def RecKey.idx : RecKey → Fin 13
  | .settings => 0
  | .context c => ⟨c.1 + 1, by omega⟩
  | .table t => ⟨t.1 + 5, by omega⟩

/-- The key index, 0 for none (R206). -/
def keyIndex : Option RecKey → Nat
  | none => 0
  | some k => k.idx.1 + 1

/-- The key a key index names (R206). -/
def keyOfIndex (n : Nat) : Option RecKey := if n = 0 then none else RecKey.all[n - 1]?

/-- The key code of a record header (R207). -/
def keyWord : RecKey → Word
  | .settings => 0x0100
  | .context c => BitVec.ofNat 16 (0x0200 + c.1)
  | .table t => BitVec.ofNat 16 (0x0300 + t.1)

/-- The key a record header's key word names, if any (R207). -/
def keyOfWord (w : Word) : Option RecKey := RecKey.all.find? fun k => keyWord k == w

/-- R86, R204. -/
def lossCode : LossPolicy → Nat
  | .dark => 0 | .fill => 1 | .pattern => 2

def lossOf : Nat → Option LossPolicy
  | 0 => some .dark | 1 => some .fill | 2 => some .pattern | _ => none

def patternCode : Pattern → Nat
  | .solid => 0 | .bars => 1 | .ramp => 2 | .grid => 3

def patternOf : Nat → Option Pattern
  | 0 => some .solid | 1 => some .bars | 2 => some .ramp | 3 => some .grid | _ => none

/-- NONE, SOLID, BARS, RAMP, GRID (R86, R88). -/
def forcedCode : Option Pattern → Nat
  | none => 0 | some p => patternCode p + 1

def forcedOf : Nat → Option (Option Pattern)
  | 0 => some none
  | n + 1 => (patternOf n).map some

def boolOf : Nat → Option Bool
  | 0 => some false | 1 => some true | _ => none

/-- The sixteen kinds in order (R206). -/
def NoticeKind.all : List NoticeKind :=
  [.frameLockChanged, .frameDamaged, .geometryMismatch, .portOverrun, .portStalled, .changeApplied, .switchSuperseded,
   .editAbandoned, .sessionExpired, .storeFault, .storeNearlyFull, .startupComplete, .trunkIntegrity, .downstreamLink,
   .contextLoadFailed, .addressAssigned]

/-- A notice kind's number (R206). -/
def NoticeKind.idx : NoticeKind → Fin 16
  | .frameLockChanged => 0 | .frameDamaged => 1 | .geometryMismatch => 2 | .portOverrun => 3 | .portStalled => 4
  | .changeApplied => 5 | .switchSuperseded => 6 | .editAbandoned => 7 | .sessionExpired => 8 | .storeFault => 9
  | .storeNearlyFull => 10 | .startupComplete => 11 | .trunkIntegrity => 12 | .downstreamLink => 13
  | .contextLoadFailed => 14 | .addressAssigned => 15

/-- The kind of a raise (R179). -/
def Detail.kind : Detail → NoticeKind
  | .lockChanged .. => .frameLockChanged
  | .frameDamaged .. | .badGeometry .. => .frameDamaged
  | .geometryMismatch .. => .geometryMismatch
  | .portOverrun .. => .portOverrun
  | .portStalled .. => .portStalled
  | .changeApplied .. => .changeApplied
  | .switchSuperseded .. => .switchSuperseded
  | .bufferAbandoned .. | .stagingAbandoned .. => .editAbandoned
  | .sessionExpired .. => .sessionExpired
  | .storeFault .. => .storeFault
  | .storeNearlyFull .. => .storeNearlyFull
  | .startupComplete .. => .startupComplete
  | .trunkIntegrity .. => .trunkIntegrity
  | .downstreamLink .. => .downstreamLink
  | .contextLoadFailed .. => .contextLoadFailed
  | .addressAssigned .. => .addressAssigned

/-- A number of bits, bit 0 first. -/
def bitsNat : List Bool → Nat
  | [] => 0
  | b :: bs => (if b then 1 else 0) + 2 * bitsNat bs

/-- The reason bits of R206: RANGE 0, ORDER 1, LOST-RUNS 2, TRUNCATED 3. -/
def damageBits (d : Damage) : Nat := bitsNat [d.range, d.order, d.lostRuns, d.truncated]

/-- The key byte of an issuer: 0 for a sessionless or broadcast issuer (R206). -/
def issuerKey : Issuer → Byte
  | .session k => k
  | .sessionless | .broadcast => 0

def Issuer.isBroadcast : Issuer → Bool
  | .broadcast => true
  | _ => false

def storeReasonCode : StoreFaultReason → Nat
  | .writeFault => 0 | .checkFail => 1 | .badContent => 2 | .scanEnded => 3

/-- The four bytes of a detail (R206). -/
def detailBytes : Detail → List Byte
  | .lockChanged old new last => [lockCode old, lockCode new] ++ wordBytes last
  | .frameDamaged f d => wordBytes f ++ [byteOf (damageBits d), 0]
  | .badGeometry f => wordBytes f ++ [16, 0]
  | .geometryMismatch f s => wordBytes f ++ [byteOf s, 0]
  | .portOverrun p f y => bytes2 (p.1 * 8192 + y) ++ wordBytes f
  | .portStalled p n (some f) => [byteOf p.1, byteOf n] ++ wordBytes f
  | .portStalled p n none => [byteOf p.1, byteOf (128 + n), 0, 0]
  | .changeApplied f c t =>
      wordBytes f ++ [(match c with | some c => byteOf c.1 | none => 255), (match t with | some t => byteOf t.1 | none => 255)]
  | .switchSuperseded old new sq =>
      [issuerKey old, issuerKey new, byteOf (bitsNat [old.isBroadcast, new.isBroadcast, sq]), 0]
  | .bufferAbandoned soft c p k => [byteOf (if soft then 128 else 0), byteOf c.1, priorCode p, k]
  | .stagingAbandoned soft t k => [byteOf (1 + if soft then 128 else 0), byteOf t.1, 0, k]
  | .sessionExpired k s l => [k, byteOf s.1, l, 0]
  | .storeFault r b a k =>
      byteOf (64 * storeReasonCode r + 32 * (bankCode b).toNat + keyIndex k) :: (bytes2 a ++ [0])
  | .storeNearlyFull n k => bytes2 n ++ [byteOf (keyIndex k), 0]
  | .startupComplete b g cs ts =>
      byteOf ((bankCode b).toNat + 16 * bitsNat cs.toList) :: (wordBytes g ++ [byteOf (bitsNat ts.toList)])
  | .trunkIntegrity l r k =>
      [(match l with | .forward => 0 | .return => 1),
       (match r with | .checkWord => 0 | .length => 1 | .overflow => 2), k, 0]
  | .downstreamLink up => [yesNo up, 0, 0, 0]
  | .contextLoadFailed c (.validation r s) => [byteOf c.1, reasonCode r, byteOf s, 0]
  | .contextLoadFailed c .checkFail => [byteOf c.1, 5, 0, 0]
  | .contextLoadFailed c .startSelection => [byteOf c.1, 6, 0, 0]
  | .addressAssigned a b => [a, b, 0, 0]

/-- The RESPONSE packet of a filled slot (R203). -/
def responsePacket (r : Response) : List Byte :=
  packet 0x11 ([r.source, r.key, r.seq, r.kind, statusCode r.status, byteOf r.results.length] ++ r.results)

/-- The return-lane IDLE packet (R203). -/
def returnIdlePacket : List Byte := packet 0x10 []

/-- The NOTICE packet formed from a slot (R185). -/
def noticePacket (source : Byte) (kind : NoticeKind) (cls : Fin 4) (p : Pending) : List Byte :=
  packet 0x12 ([source, byteOf kind.idx.1, byteOf cls.1, byteOf p.count] ++ detailBytes p.first ++ detailBytes p.latest)

end Sys2Proof.Machine
end

