-- ==== Sys2Proof/Machine/TileMap.lean ====
section
/-!
DEFINITION. The tile map of chapter 1: used slots, covering, chain lists, port load, validation, and the context image
of the record store (R15, R207).
-/

namespace Sys2Proof.Machine

/-- Tiles with their slot numbers, in slot order. -/
abbrev Slotted := List (Nat × Tile)

/-- The used slots among table slots counted from `i`. -/
def usedFrom : Nat → List (Option Tile) → Slotted
  | _, [] => []
  | i, some t :: ts => (i, t) :: usedFrom (i + 1) ts
  | i, none :: ts => usedFrom (i + 1) ts

/-- The used slots of a tile table (R1, R3). -/
def used (t : TileTable) : Slotted := usedFrom 0 t.toList

/-- The empty tile table. -/
def emptyTable : TileTable := Vector.replicate 32 none

/-- A tile covers a raster line (R2). -/
def Tile.coversLine (t : Tile) (y : Nat) : Bool := decide (t.y ≤ y) && decide (y < t.y + t.h)

/-- Insertion by chain position, after those not higher. -/
def insertByPos (e : Nat × Tile) : Slotted → Slotted
  | [] => [e]
  | f :: es => if e.2.pos < f.2.pos then e :: f :: es else f :: insertByPos e es

/-- The chain list of a port: its tiles by chain position, lowest first (R7). -/
def chainList (ts : Slotted) (p : Fin 8) : Slotted :=
  (ts.filter fun e => e.2.port == p).foldl (fun l e => insertByPos e l) []

/-- The port load on a raster line (R9). -/
def portLoad (ts : Slotted) (p : Fin 8) (y : Nat) : Nat :=
  ((ts.filter fun e => e.2.port == p && e.2.coversLine y).map fun e => e.2.w).sum

/-! ## Validation (R10) -/

/-- RANGE fails for a tile (R11). -/
def rangeFails (t : Tile) : Bool :=
  decide (Config.rasterLimit < t.x + t.w) || decide (Config.rasterLimit < t.y + t.h)

/-- Another used slot has the same port and chain position (R12). -/
def duplicated (ts : Slotted) (e : Nat × Tile) : Bool :=
  ts.any fun f => f.1 != e.1 && f.2.port == e.2.port && f.2.pos == e.2.pos

/-- The chain position is not below the number of used slots on the port (R13). -/
def gapped (ts : Slotted) (e : Nat × Tile) : Bool :=
  decide ((ts.filter fun f => f.2.port == e.2.port).length ≤ e.2.pos.1)

/-- The slot covers a line on which its port's load is over the budget (R14). -/
def overBudget (ts : Slotted) (e : Nat × Tile) : Bool :=
  (List.range e.2.h).any fun k => decide (Config.lineBudget < portLoad ts e.2.port (e.2.y + k))

/-- The lowest slot a check names. -/
def firstSlot (ts : Slotted) (bad : Nat × Tile → Bool) : Option Nat := (ts.find? bad).map Prod.fst

/-- Validation: the first of the four checks that fails decides (R10 to R14). -/
def validateTiles (ts : Slotted) : Validation :=
  match firstSlot ts (fun e => rangeFails e.2) with
  | some s => .failed .range s
  | none =>
    match firstSlot ts (duplicated ts) with
    | some s => .failed .duplicatePosition s
    | none =>
      match firstSlot ts (gapped ts) with
      | some s => .failed .gap s
      | none =>
        match firstSlot ts (overBudget ts) with
        | some s => .failed .portBudget s
        | none => .ok

/-- Validation of a tile table (R10). -/
def validate (t : TileTable) : Validation := validateTiles (used t)

/-! ## The context image (R15, R207) -/

/-- The low and high byte of a word as numbers. -/
def highByte (w : Word) : Nat := w.toNat / 256
def lowByte (w : Word) : Nat := w.toNat % 256

/-- A word's bits `hi` to `lo` as a number. -/
def bitsOf (w : Word) (hi lo : Nat) : Nat := w.toNat / 2 ^ lo % 2 ^ (hi + 1 - lo)

/-- A number with a range `n`. -/
def fin? (n v : Nat) : Option (Fin n) := if h : v < n then some ⟨v, h⟩ else none

/-- The word of a number. -/
def wordOf (n : Nat) : Word := BitVec.ofNat 16 n

/-- The six words of an entry (R207). -/
def entryWords (e : Nat × Tile) : List Word :=
  [wordOf e.1, wordOf (e.2.port.1 * 256 + e.2.pos.1), wordOf e.2.x, wordOf e.2.y,
   wordOf ((e.2.w - 1) * 256 + (e.2.h - 1)),
   wordOf ((if e.2.mirrorH then 32768 else 0) + (if e.2.mirrorV then 16384 else 0) + e.2.table.1 * 256 + e.2.bright)]

/-- The image of a context: fill colour, used count, entries in ascending slot order (R110, R207). -/
def contextImage (c : Context) : List Word :=
  let ts := used c.table
  [wordOf c.fill.c0, wordOf c.fill.c1, wordOf c.fill.c2, wordOf ts.length] ++ ts.flatMap entryWords

/-- The tile of an entry's five field words, if every field is in range (R1, R15, R207). -/
def tileOfWords (pp x y wh m : Word) : Option Tile :=
  match fin? 8 (highByte pp), fin? 8 (lowByte pp) with
  | some port, some pos =>
    if x.toNat < 8192 && y.toNat < 8192 && bitsOf m 13 11 == 0 then
      match fin? 8 (bitsOf m 10 8) with
      | some table =>
        some { port := port, pos := pos, x := x.toNat, y := y.toNat, w := highByte wh + 1, h := lowByte wh + 1,
               mirrorH := bitsOf m 15 15 == 1, mirrorV := bitsOf m 14 14 == 1, table := table, bright := lowByte m }
      | none => none
    else none
  | _, _ => none

/-- The entries of an image: each slot number with its tile, or `none` for a field out of range. -/
def imageEntries : List Word → List (Nat × Option Tile)
  | s :: pp :: x :: y :: wh :: m :: rest => (s.toNat, tileOfWords pp x y wh m) :: imageEntries rest
  | _ => []

/-- The least of some numbers, 0 for none. -/
def leastOr0 : List Nat → Nat
  | [] => 0
  | n :: ns => ns.foldl min n

/-- The table of an image's entries. -/
def tableOfEntries (es : List (Nat × Option Tile)) : TileTable :=
  es.foldl (fun t e => match fin? 32 e.1 with | some s => upd t s e.2 | none => t) emptyTable

/-- The image check of R15: the fill colour and tile table of an image, or the slot it reports, which is the lowest with a
fault of its own and 0 where there is none. The entries are those the used count names, as far as they stand whole in
the record (log 24). -/
def imageCheck (ws : List Word) : Nat ⊕ (Rgb × TileTable) :=
  match ws with
  | f0 :: f1 :: f2 :: n :: rest =>
    let es := (imageEntries rest).take n.toNat
    let bad := es.filter fun e =>
      decide (e.1 < 32) && (e.2.isNone || decide (1 < (es.filter fun f => f.1 == e.1).length))
    let faulty := decide (32 < n.toNat) || rest.length != 6 * n.toNat || !bad.isEmpty ||
      es.any (fun e => decide (32 ≤ e.1)) || [f0, f1, f2].any (fun w => decide (4096 ≤ w.toNat))
    if faulty then .inl (leastOr0 (bad.map Prod.fst))
    else .inr (⟨f0.toNat, f1.toNat, f2.toNat⟩, tableOfEntries es)
  | _ => .inl 0

/-- Validation of a context image: the image check, then the four checks (R10, R15). -/
def validateImage (ws : List Word) : Validation ⊕ (Rgb × TileTable) :=
  match imageCheck ws with
  | .inl s => .inl (.failed .range s)
  | .inr (f, t) =>
    match validate t with
    | .ok => .inr (f, t)
    | v => .inl v

end Sys2Proof.Machine
end

