-- ==== Sys2Proof/Machine/Operands.lean ====
section
/-!
DEFINITION. Operand bytes of requests (R154, R204): each reader answers the operands in the order of the owning rule,
or `none` where a field is missing, in excess or out of range, which the request answers BAD-OPERAND.
-/

namespace Sys2Proof.Machine

/-- A tile entry in the ten fields of R1. -/
def tileOperand : List Byte → Option Tile
  | [p, k, x1, x0, y1, y0, w1, w0, h1, h0, mh, mv, t, b] =>
    let x := num2 x1 x0; let y := num2 y1 y0; let w := num2 w1 w0; let h := num2 h1 h0
    match fin? 8 p.toNat, fin? 8 k.toNat, boolOf mh.toNat, boolOf mv.toNat, fin? 8 t.toNat with
    | some p, some k, some mh, some mv, some t =>
      if x < 8192 ∧ y < 8192 ∧ 1 ≤ w ∧ w ≤ 256 ∧ 1 ≤ h ∧ h ≤ 256 then
        some { port := p, pos := k, x := x, y := y, w := w, h := h, mirrorH := mh, mirrorV := mv, table := t,
               bright := b.toNat }
      else none
    | _, _, _, _, _ => none
  | _ => none

/-- No operands. -/
def noOperands : List Byte → Option Unit
  | [] => some ()
  | _ => none

/-- One byte below `n`. -/
def finOperand (n : Nat) : List Byte → Option (Fin n)
  | [b] => fin? n b.toNat
  | _ => none

/-- OPEN-SESSION(key, lease code): key 0 and codes outside 0..15 are out of range (R158). -/
def openSessionOperands : List Byte → Option (Byte × Nat)
  | [k, c] => if k = 0 then none else (fin? 16 c.toNat).map fun c => (k, c.1)
  | _ => none

/-- The source of READ-TILE: a context or the edit buffer (R16). -/
inductive TileSource where
  | context (c : Fin 4)
  | edit
deriving DecidableEq, Repr

/-- READ-TILE(source, s) (R16). -/
def readTileOperands : List Byte → Option (TileSource × Fin 32)
  | [src, s] =>
    match fin? 32 s.toNat with
    | some s => if src = 4 then some (.edit, s) else (fin? 4 src.toNat).map fun c => (.context c, s)
    | none => none
  | _ => none

/-- OPEN-EDIT(c, mode), `true` for COPY (R21). -/
def openEditOperands : List Byte → Option (Fin 4 × Bool)
  | [c, m] =>
    match fin? 4 c.toNat, m.toNat with
    | some c, 0 => some (c, true)
    | some c, 1 => some (c, false)
    | _, _ => none
  | _ => none

/-- SET-TILE(s, entry) (R22). -/
def setTileOperands : List Byte → Option (Fin 32 × Tile)
  | s :: e =>
    match fin? 32 s.toNat, tileOperand e with
    | some s, some t => some (s, t)
    | _, _ => none
  | [] => none

/-- SET-FILL(v0, v1, v2) (R24). -/
def setFillOperands : List Byte → Option Rgb
  | [a1, a0, b1, b0, c1, c0] =>
    if num2 a1 a0 < 4096 ∧ num2 b1 b0 < 4096 ∧ num2 c1 c0 < 4096 then
      some ⟨num2 a1 a0, num2 b1 b0, num2 c1 c0⟩
    else none
  | _ => none

/-- An optional frame number at the end of the operands (R204). -/
def frameOperand : List Byte → Option (Option Word)
  | [] => some none
  | [hi, lo] => some (some (word2 hi lo))
  | _ => none

/-- SELECT-CONTEXT(c, [N]) (R29). -/
def selectContextOperands : List Byte → Option (Fin 4 × Option Word)
  | c :: rest =>
    match fin? 4 c.toNat, frameOperand rest with
    | some c, some n => some (c, n)
    | _, _ => none
  | [] => none

/-- `n` sequence entries, a context and a repeat count each, and the bytes after them (R30). -/
def seqEntries : Nat → List Byte → Option (List SeqEntry × List Byte)
  | 0, rest => some ([], rest)
  | n + 1, c :: r :: rest =>
    match fin? 4 c.toNat, seqEntries n rest with
    | some c, some (es, rest) => if r = 0 then none else some (⟨c, r.toNat⟩ :: es, rest)
    | _, _ => none
  | _ + 1, _ => none

/-- SELECT-SEQUENCE(list, [N]) of 1 to 8 entries (R30). -/
def selectSequenceOperands : List Byte → Option (List SeqEntry × Option Word)
  | n :: rest =>
    if 1 ≤ n.toNat ∧ n.toNat ≤ 8 then
      match seqEntries n.toNat rest with
      | some (es, rest) => (frameOperand rest).map fun f => (es, f)
      | none => none
    else none
  | [] => none

/-- BEGIN-TABLE(t, mode), `true` for COPY (R71). -/
def beginTableOperands : List Byte → Option (Fin 8 × Bool)
  | [t, m] =>
    match fin? 8 t.toNat, m.toNat with
    | some t, 0 => some (t, true)
    | some t, 1 => some (t, false)
    | _, _ => none
  | _ => none

/-- SET-PORT(p, enabled, loss policy, policy pattern) (R87). -/
def setPortOperands : List Byte → Option (Fin 8 × Bool × LossPolicy × Pattern)
  | [p, e, l, k] =>
    match fin? 8 p.toNat, boolOf e.toNat, lossOf l.toNat, patternOf k.toNat with
    | some p, some e, some l, some k => some (p, e, l, k)
    | _, _, _, _ => none
  | _ => none

/-- FORCE-PATTERN(p, kind), `none` for the port ALL (R88). -/
def forcePatternOperands : List Byte → Option (Option (Fin 8) × Option Pattern)
  | [p, k] =>
    match forcedOf k.toNat with
    | some k => if p = 255 then some (none, k) else (fin? 8 p.toNat).map fun p => (some p, k)
    | none => none
  | _ => none

/-- CURSOR-SET(target, curve, index): the target and the position (R169). -/
def cursorSetOperands : List Byte → Option (CursorTarget × Nat)
  | [t, c, i1, i0] =>
    let pos := 1024 * c.toNat + num2 i1 i0
    if c.toNat < 3 ∧ num2 i1 i0 < 1024 then
      if t = 8 then some (.staging, pos) else (fin? 8 t.toNat).map fun t => (.table t, pos)
    else none
  | _ => none

/-- Two-byte values, each 0..4095. -/
def values12 : List Byte → Option (List Nat)
  | [] => some []
  | hi :: lo :: rest => if num2 hi lo < 4096 then (values12 rest).map fun vs => num2 hi lo :: vs else none
  | [_] => none

/-- CURSOR-WRITE(values), a list of 1 to 24 (R170). -/
def cursorWriteOperands : List Byte → Option (List Nat)
  | n :: rest =>
    if 1 ≤ n.toNat ∧ n.toNat ≤ 24 then
      match values12 rest with
      | some vs => if vs.length = n.toNat then some vs else none
      | none => none
    else none
  | [] => none

/-- CURSOR-READ(count), 1 to 24 (R171). -/
def cursorReadOperands : List Byte → Option Nat
  | [n] => if 1 ≤ n.toNat ∧ n.toNat ≤ 24 then some n.toNat else none
  | _ => none

/-- The parts of READ-STATUS (R173). -/
inductive StatusPart where
  | device | sessions | map | frame | link
deriving DecidableEq, Repr

/-- READ-STATUS(part). -/
def readStatusOperands : List Byte → Option StatusPart
  | [p] => [StatusPart.device, .sessions, .map, .frame, .link][p.toNat]?
  | _ => none

/-- A record key as its key index (R204). -/
def keyOperand : List Byte → Option RecKey
  | [k] => keyOfIndex k.toNat
  | _ => none

/-- RESTORE-CONTEXT(key): a CONTEXT key (R120). -/
def contextKeyOperand (ops : List Byte) : Option (Fin 4) :=
  match keyOperand ops with
  | some (.context c) => some c
  | _ => none

/-- RESTORE-TABLE(key): a TABLE key (R121). -/
def tableKeyOperand (ops : List Byte) : Option (Fin 8) :=
  match keyOperand ops with
  | some (.table t) => some t
  | _ => none

/-- SET-NOTICE-CLASS(kind, class) (R182). -/
def noticeClassOperands : List Byte → Option (NoticeKind × Fin 4)
  | [k, c] =>
    match NoticeKind.all[k.toNat]?, fin? 4 c.toNat with
    | some k, some c => some (k, c)
    | _, _ => none
  | _ => none

/-- ENUMERATE(A, FORCE): A in 1..255 (R194). -/
def enumerateOperands : List Byte → Option (Byte × Bool)
  | [a, f] => if a = 0 then none else (boolOf f.toNat).map fun f => (a, f)
  | _ => none

/-- RESET(kind), `true` for FULL (R199). -/
def resetOperand : List Byte → Option Bool
  | [k] => boolOf k.toNat
  | _ => none

end Sys2Proof.Machine
end

