-- ==== Sys2Proof/Machine/Ops.lean ====
section
/-!
DEFINITION. The operations every family shares: elapsed time, raises into the notice slots (R180 to R187), the
response queue (R176 to R178), and forwarding (R138, R139).
-/

namespace Sys2Proof.Machine

/-! ## Time and the hold in reset -/

/-- `dt` microseconds pass, and a new command's outputs are collected (log 1, log 4). -/
def State.elapse (dt : Nat) (s : State) : State := { s with now := s.now + dt, out := [] }

/-- A deadline is reached: the clock shows at least its time (log 1). -/
def State.reach (t : Nat) (s : State) : State := { s with now := max s.now t }

/-- A command taken `dt` after the one before. While the part is held in reset nothing but time passes (R198). -/
def State.take (dt : Nat) (s : State) (f : State → State) : Host.Outcome State Fault Refusal :=
  .next (if s.held then s.elapse dt else f (s.elapse dt))

/-- The Upstream and Downstream ports receive: the part is not held in reset, and it is not the moment at which a FULL
reset took effect, when what arrives is lost (R198, R202, log 43). -/
def State.hears (s : State) : Bool := !s.held && s.resetAt != some s.now

/-- A packet on a lane, `dt` after the command before: taken while the ports receive, else lost. -/
def State.receive (dt : Nat) (s : State) (f : State → State) : Host.Outcome State Fault Refusal :=
  .next (if (s.elapse dt).hears then f (s.elapse dt) else s.elapse dt)

/-! ## Notice slots -/

/-- A count that stays at 255 once it is there (R181). -/
def bump255 (n : Nat) : Nat := min 255 (n + 1)

/-- A raise (R181, R186). -/
def Notices.raise (d : Detail) (n : Notices) : Notices :=
  let k := d.kind
  let sl := n.slots[k.idx]
  match sl.body with
  | none =>
    if sl.cls = 3 then n
    else { slots := upd n.slots k.idx { sl with body := some ⟨1, d, d, false, none⟩ }, list := n.list ++ [k] }
  | some p =>
    if p.sending then
      match p.carry with
      | none =>
        { slots := upd n.slots k.idx { sl with body := some { p with carry := some ⟨1, d, d⟩ } },
          list := n.list.filter (· != k) ++ [k] }
      | some c =>
        let more : Pending := { p with carry := some ⟨bump255 c.count, c.first, d⟩ }
        { n with slots := upd n.slots k.idx { sl with body := some more } }
    else
      let more : Pending := { p with count := bump255 p.count, latest := d }
      { n with slots := upd n.slots k.idx { sl with body := some more } }

/-- The class of a kind set; class 3 empties the slot (R182). -/
def Notices.setClass (k : NoticeKind) (c : Fin 4) (n : Notices) : Notices :=
  if c = 3 then { slots := upd n.slots k.idx ⟨c, none⟩, list := n.list.filter (· != k) }
  else { n with slots := upd n.slots k.idx { n.slots[k.idx] with cls := c } }

/-- The pending kind of a class that stands first in the pending list. -/
def Notices.firstOf (n : Notices) (c : Fin 4) : Option NoticeKind :=
  n.list.find? fun k => n.slots[k.idx].cls == c

/-- The chosen notice: the oldest of the lowest class present, none while the address is 0 (R183). -/
def Notices.chosen (n : Notices) (address : Byte) : Option NoticeKind :=
  if address = 0 then none
  else (n.firstOf 0).or ((n.firstOf 1).or (n.firstOf 2))

/-- The beginning of a notice's transmission: the sending mark is set, the carry absent (R185). -/
def Notices.beginSend (k : NoticeKind) (n : Notices) : Notices :=
  let sl := n.slots[k.idx]
  { n with slots := upd n.slots k.idx { sl with body := sl.body.map fun p => { p with sending := true, carry := none } } }

/-- The end of a notice's transmission (R187). -/
def Notices.endSend (k : NoticeKind) (n : Notices) : Notices :=
  let sl := n.slots[k.idx]
  match sl.body with
  | none => n
  | some p =>
    if p.sending then
      match p.carry with
      | none => { slots := upd n.slots k.idx { sl with body := none }, list := n.list.filter (· != k) }
      | some c =>
        { n with slots := upd n.slots k.idx { sl with body := some ⟨c.count, c.first, c.latest, false, none⟩ } }
    else n

/-- Every slot EMPTY, the classes kept (R189). -/
def Notices.emptied (n : Notices) : Notices :=
  { slots := n.slots.map fun sl => { sl with body := none }, list := [] }

/-- The number of PENDING slots (R180). -/
def Notices.pendingCount (n : Notices) : Nat := (n.slots.toList.filter fun sl => sl.body.isSome).length

/-- A notice raised. -/
def State.raise (d : Detail) (s : State) : State := { s with ns := s.ns.raise d }

/-- A notice raised if there is a detail. -/
def State.raiseIf : Option Detail → State → State
  | none, s => s
  | some d, s => s.raise d

/-! ## The response queue -/

/-- The eight response slots. -/
def rqIndices : List (Fin 8) := [0, 1, 2, 3, 4, 5, 6, 7]

/-- The slot a request reserves: the lowest free one (R152, log 11). -/
def ResponseQueue.freeSlot (q : ResponseQueue) : Option (Fin 8) := rqIndices.find? fun i => q.slots[i] == .free

/-- A slot reserved with the mark of its request (R176). -/
def ResponseQueue.reserve (i : Fin 8) (key seq kind : Byte) (q : ResponseQueue) : ResponseQueue :=
  { q with slots := upd q.slots i (.reserved key seq kind) }

/-- A slot filled, joining the tail of the fill order (R176, R177). -/
def ResponseQueue.fill (i : Fin 8) (r : Response) (q : ResponseQueue) : ResponseQueue :=
  { slots := upd q.slots i (.filled r), order := q.order.filter (· != i) ++ [i] }

/-- A slot freed, leaving the fill order (R178). -/
def ResponseQueue.release (i : Fin 8) (q : ResponseQueue) : ResponseQueue :=
  { slots := upd q.slots i .free, order := q.order.filter (· != i) }

/-- The head of the response queue: the oldest filled slot (R178). -/
def ResponseQueue.head (q : ResponseQueue) : Option (Fin 8 × Response) :=
  match q.order with
  | [] => none
  | i :: _ => match q.slots[i] with
    | .filled r => some (i, r)
    | _ => none

/-- How many slots are free, reserved, filled (R174). -/
def ResponseQueue.freeCount (q : ResponseQueue) : Nat := (q.slots.toList.filter (· == .free)).length
def ResponseQueue.filledCount (q : ResponseQueue) : Nat :=
  (q.slots.toList.filter fun r => match r with | .filled _ => true | _ => false).length
def ResponseQueue.reservedCount (q : ResponseQueue) : Nat :=
  (q.slots.toList.filter fun r => match r with | .reserved .. => true | _ => false).length

/-- A response placed in a slot: its source is the address at this moment (R177). -/
def State.fill (i : Fin 8) (key seq kind : Byte) (st : Status) (res : List Byte) (s : State) : State :=
  { s with rq := s.rq.fill i ⟨s.address, key, seq, kind, st, res⟩ }

/-! ## Forwarding -/

/-- A packet passed to the Downstream port: sent while the link is UP, discarded while it is DOWN (R138, R139). -/
def State.forward (bytes : List Byte) (s : State) : State :=
  if s.dn.up then { s with out := s.out ++ [.forward bytes] } else s

end Sys2Proof.Machine
end

