-- ==== Sys2Proof/Machine/Flags.lean ====
section
/-!
DEFINITION. Conditions and levels the manual derives from the state: the HOLD output (R143), the loss policy in force
and a port's reported state (R89, R98), the cadence period (R97), the store's reported state and words (R111, R134),
and the lease lengths (R163).
-/

namespace Sys2Proof.Machine

/-- The HOLD output: four packets buffered, or three and one in reception (R143). -/
def Downlink.holdOut (d : Downlink) : Bool :=
  decide (Config.passBuffer ≤ d.buffer.length) || (d.buffer.length == 3 && d.receiving)

/-- The HOLD output pin (R143). -/
def State.holdOut (s : State) : Bool := s.dn.holdOut

/-- The loss policy is in force for a port (R98). -/
def lossInForce (s : State) (p : Port) : Bool :=
  p.config.enabled && p.config.forced.isNone && !p.releasePending &&
    (s.ft.lock == .lost || s.ft.lock == .noSignal) && s.ft.frame.isNone && s.phase == .running

/-- The states a port reports, in the order of R89. -/
inductive PortState where
  | off | stalled | forced | policy | streaming | idle
deriving DecidableEq, Repr

/-- The state a port reports: the first row of R89 that holds, IDLE while STARTING. -/
def portState (s : State) (p : Port) : PortState :=
  if s.phase = .starting then .idle
  else if !p.config.enabled then .off
  else if p.stalled then .stalled
  else if p.config.forced.isSome || p.releasePending then .forced
  else if lossInForce s p then .policy
  else if !p.queue.isEmpty || p.transferring then .streaming
  else .idle

def portStateCode : PortState → Byte
  | .off => 0 | .stalled => 1 | .forced => 2 | .policy => 3 | .streaming => 4 | .idle => 5

/-- The rate of a cadence code in Hz (R97). -/
def cadenceRate (code : Nat) : Nat :=
  [24, 25, 30, 48, 50, 60, 72, 75, 90, 96, 100, 120, 144, 150, 200, 240].getD code 60

/-- The period of a cadence code: 1,000,000 microseconds over its rate, truncated (R97). -/
def codePeriod (code : Nat) : Nat := 1000000 / cadenceRate code

/-- The cadence period in force: the reference period when present, else the code's (R65, R97). -/
def State.cadencePeriod (s : State) : Nat :=
  match s.ft.reference with
  | some r => r
  | none => codePeriod s.cadence

/-- The lease of a code, microseconds (R163). -/
def leaseLength (code : Nat) : Nat := Config.leaseUnit * 2 ^ code

/-- The free words (R111). -/
def RecordStore.freeWords (r : RecordStore) : Nat := if r.full then 0 else Config.bankWords - r.append

/-- The live words (R134). -/
def RecordStore.liveWords (r : RecordStore) : Nat :=
  (r.directory.toList.map fun e => match e with | some e => 4 + e.len | none => 0).sum

/-- The store state reported: BUSY 1, FULL-UNTIL-COMPACT 2 or IDLE 0 (R111, R174). -/
def RecordStore.stateCode (r : RecordStore) : Byte :=
  if r.op.isSome || r.load.isSome then 1 else if r.full then 2 else 0

end Sys2Proof.Machine
end

