-- ==== Sys2Proof/Machine/Ports.lean ====
section
/-!
DEFINITION. The tile ports of chapter 5: queue, transfer and stall (R90 to R92), enabling and disabling (R93), tallies
(R94, R95), generated frames and patterns (R99 to R103), and the commands whose event is at a port.
-/

namespace Sys2Proof.Machine

/-- The eight ports. -/
def portIndices : List (Fin 8) := [0, 1, 2, 3, 4, 5, 6, 7]

/-! ## One port -/

/-- The stall timer runs, or has run out, exactly while lines wait, none is in transfer and READY is low (R92). -/
def Port.waiting (p : Port) : Bool := !p.queue.isEmpty && !p.transferring && !p.ready

/-- The stall timer follows its three conditions (R92). -/
def Port.keepStall (now : Nat) (p : Port) : Port :=
  if p.waiting then
    if p.stallTimer.isNone && !p.stalled then { p with stallTimer := some (now + Config.stallTimeout) } else p
  else { p with stallTimer := none }

/-- The line whose transfer starts now, if the conditions of R90 hold. -/
def Port.starting (p : Port) : Option PortLine :=
  if p.config.enabled && !p.transferring && p.ready then p.queue.head? else none

/-- A transfer starts if its conditions hold, and the stall timer follows (R90, R92). -/
def Port.settle (now : Nat) (p : Port) : Port :=
  match p.starting with
  | some _ => Port.keepStall now { p with transferring := true }
  | none => p.keepStall now

/-- A change to the tally record that a line's age names. -/
def Port.tally (p : Port) (age : Age) (f : Tally → Tally) : Port :=
  match age with
  | .current => { p with current := p.current.map f }
  | .last => { p with last := p.last.map f }
  | .retired => p

/-- Rows of a line counted dropped in its frame's record; generated lines are not counted (R94). -/
def Port.countDropped (p : Port) (l : PortLine) : Port :=
  match l.source with
  | .trunk _ age => p.tally age fun t => { t with dropped := t.dropped + l.rows.length }
  | .policy | .pattern => p

/-- Rows of a line counted delivered in its frame's record (R90, R94). -/
def Port.countDelivered (p : Port) (l : PortLine) : Port :=
  match l.source with
  | .trunk _ age => p.tally age fun t => { t with delivered := t.delivered + l.rows.length }
  | .policy | .pattern => p

/-- The lines that wait: all but the one in transfer. -/
def Port.waitingLines (p : Port) : List PortLine := if p.transferring then p.queue.drop 1 else p.queue

/-- The line in transfer. -/
def Port.inTransfer (p : Port) : List PortLine := if p.transferring then p.queue.take 1 else []

/-- Waiting lines discarded, the rows of trunk lines counted dropped; a queue so emptied clears the stall flag (R92,
R93, R94, R100). The line in transfer is never discarded. -/
def Port.discard (drop : PortLine → Bool) (p : Port) : Port :=
  let gone := p.waitingLines.filter drop
  let queue := p.inTransfer ++ p.waitingLines.filter fun l => !drop l
  let q := gone.foldl Port.countDropped { p with queue := queue }
  if queue.isEmpty && !gone.isEmpty then { q with stalled := false } else q

/-- A trunk line handed to a port (R91): the port after it, and whether the queue was full. -/
def Port.hand (l : PortLine) (p : Port) : Port × Bool :=
  if !p.config.enabled || p.config.forced.isSome || p.releasePending then (p.countDropped l, false)
  else if Config.portQueue ≤ p.queue.length then (p.countDropped l, true)
  else
    ({ p with queue := p.queue ++ [l], current := p.current.map fun t => { t with queued := t.queued + l.rows.length } },
     false)

/-- The head's transfer completes: it leaves the queue and its rows are counted delivered (R90). -/
def Port.complete (p : Port) : Port :=
  match p.queue with
  | l :: rest => Port.countDelivered { p with queue := rest, transferring := false } l
  | [] => { p with transferring := false }

/-- A trunk line of LAST's frame. -/
def isLast (l : PortLine) : Bool :=
  match l.source with
  | .trunk _ .last => true
  | _ => false

/-- The line in transfer, at the retirement of its record, counts no more (R94). -/
def retireLine (l : PortLine) : PortLine :=
  match l.source with
  | .trunk f .last => { l with source := .trunk f .retired }
  | _ => l

/-- A line of CURRENT's frame becomes one of LAST's. -/
def ageLine (l : PortLine) : PortLine :=
  match l.source with
  | .trunk f .current => { l with source := .trunk f .last }
  | _ => l

/-- The tally records at the open of frame `f` (R94): LAST retired, CURRENT becomes LAST, a new CURRENT. -/
def Port.retire (f : Word) (p : Port) : Port :=
  let p := p.discard isLast
  let p := (p.inTransfer.filter isLast).foldl Port.countDelivered p
  { p with queue := (p.queue.map retireLine).map ageLine, last := p.current, current := some ⟨f, 0, 0, 0⟩ }

/-- A generated frame of one sort ends, and its lines that wait are discarded (R100). -/
def Port.endGenerated (policy : Bool) (p : Port) : Port :=
  let p := match p.gen with
    | some g => if g.policy == policy then { p with gen := none } else p
    | none => p
  p.discard fun l => l.source == (if policy then .policy else .pattern)

/-- What a frame open does at a port (R94, R100): records shift, and policy output ends. -/
def Port.open (f : Word) (p : Port) : Port := (p.retire f).endGenerated true

/-- A disable (R93). -/
def Port.disable (p : Port) : Port :=
  let p := Port.discard (fun _ => true) { p with config := { p.config with enabled := false }, gen := none }
  { p with stallTimer := none, stalled := false }

/-- The first three configuration items set (R87, R93). -/
def Port.configure (enabled : Bool) (loss : LossPolicy) (pattern : Pattern) (p : Port) : Port :=
  let p := { p with config := { p.config with loss := loss, pattern := pattern } }
  if p.config.enabled && !enabled then p.disable
  else { p with config := { p.config with enabled := enabled } }

/-- The forced pattern set, with a frame open or not (R88, R100, R101). -/
def Port.force (frameOpen : Bool) (kind : Option Pattern) (p : Port) : Port :=
  if p.config.forced = kind then p
  else
    let q := p.endGenerated p.config.forced.isNone
    { q with config := { q.config with forced := kind },
             releasePending := if kind.isNone then frameOpen else false }

/-! ## Patterns (R102, R103) -/

/-- White. -/
def Rgb.white : Rgb := ⟨4095, 4095, 4095⟩

/-- The colours of the eight bars (R102). -/
def barColours : List Rgb :=
  [⟨4095, 4095, 4095⟩, ⟨4095, 4095, 0⟩, ⟨0, 4095, 4095⟩, ⟨0, 4095, 0⟩, ⟨4095, 0, 4095⟩, ⟨4095, 0, 0⟩, ⟨0, 0, 4095⟩,
   ⟨0, 0, 0⟩]

/-- The bar that covers a tile column: bar k covers floor(k w / 8) to floor((k + 1) w / 8) - 1 (R102). -/
def barOf (w i : Nat) : Nat :=
  (([0, 1, 2, 3, 4, 5, 6, 7] : List Nat).find? fun k => decide (k * w / 8 ≤ i) && decide (i < (k + 1) * w / 8)).getD 7

/-- A pixel of a generated row: tile column `i` of the row index `j` sent (R102, R103). -/
def patternPixel (kind : Pattern) (fill : Rgb) (t : Tile) (j i : Nat) : Rgb :=
  match kind with
  | .solid => fill
  | .bars => barColours.getD (barOf t.w i) Rgb.black
  | .ramp => let v := if t.w = 1 then 4095 else 4095 * i / (t.w - 1); ⟨v, v, v⟩
  | .grid =>
    if i = 0 ∨ i + 1 = t.w ∨ j = 0 ∨ j + 1 = t.h ∨ (j = t.h / 2 ∧ 2 ≤ i ∧ i ≤ 2 + t.pos.1) then Rgb.white else Rgb.black

/-- The row index sent to the panel for raster line `y` (R82). -/
def rowIndex (t : Tile) (y : Nat) : Nat := if t.mirrorV then t.h - 1 - (y - t.y) else y - t.y

/-- The row of a generated line (R99). -/
def generatedRow (g : GenFrame) (y : Nat) (e : Nat × Tile) : TileRow :=
  { slot := e.1, pos := e.2.pos.1, index := rowIndex e.2 y, kind := .generated,
    pixels := (List.range e.2.w).map (patternPixel g.kind g.fill e.2 (rowIndex e.2 y)) }

/-- The next raster line a generated frame places: the lowest, from `nextY` on, that a copied tile covers (R99). -/
def GenFrame.nextLine (g : GenFrame) : Option Nat :=
  match (g.tiles.filter fun e => decide (g.nextY < e.2.y + e.2.h)).map fun e => max g.nextY e.2.y with
  | [] => none
  | y :: ys => some (ys.foldl min y)

/-- The generated line of raster line `y` (R99). -/
def GenFrame.line (g : GenFrame) (y : Nat) : PortLine :=
  { source := if g.policy then .policy else .pattern, y := y,
    rows := (g.tiles.filter fun e => e.2.coversLine y).map (generatedRow g y) }

/-- A generated frame that has placed its last line has ended (R99). -/
def GenFrame.orEnded (g : GenFrame) : Option GenFrame := if g.nextLine.isSome then some g else none

/-- A generated frame started: counted, and ended at once when it has no line (R99). -/
def Port.startGenerated (g : GenFrame) (p : Port) : Port := { p with gen := g.orEnded, genCount := p.genCount + 1 }

/-- The next generated line placed at the tail of the queue, if there is room (R99). -/
def Port.place (p : Port) : Port :=
  match p.gen with
  | none => p
  | some g =>
    match g.nextLine with
    | none => { p with gen := none }
    | some y =>
      if p.queue.length < Config.portQueue then
        { p with queue := p.queue ++ [g.line y], gen := GenFrame.orEnded { g with nextY := y + 1 } }
      else p

/-! ## The ports of the block -/

/-- A port replaced: a transfer starts if its conditions now hold, and the line it sends is put out (R90). -/
def State.setPort (i : Fin 8) (p : Port) (s : State) : State :=
  { s with ports := upd s.ports i (p.settle s.now),
           out := s.out ++ (p.starting.toList.map (Output.chain i)) }

/-- A change made at a port. -/
def State.atPort (i : Fin 8) (f : Port → Port) (s : State) : State := s.setPort i (f s.ports[i])

/-- A change made at every port, in port order (log 16). -/
def State.atPorts (f : Port → Port) (s : State) : State := portIndices.foldl (fun s i => s.atPort i f) s

/-- A trunk line of a frame handed to a port, with PORT-OVERRUN when its queue is full (R91). -/
def State.handLine (i : Fin 8) (frame : Word) (l : PortLine) (s : State) : State :=
  let handed := s.ports[i].hand l
  (if handed.2 then s.raise (.portOverrun i frame l.y) else s).setPort i handed.1

/-- The active context (R28). -/
def MapStore.activeContext (m : MapStore) : Option (Fin 4) :=
  match m.selection with
  | .none => none
  | .context c => some c
  | .sequence es i _ => es[i]?.map fun e => e.ctx

/-- The tiles and fill colour the active selection shows; none and black when it is NONE (R28, R77, R99). -/
def MapStore.shown (m : MapStore) : Slotted × Rgb :=
  match m.activeContext with
  | some c => (used m.contexts[c].table, m.contexts[c].fill)
  | none => ([], Rgb.black)

/-- The generated frame a cadence expiry calls for at a port, if any (R99). -/
def State.generatedFrame (s : State) (i : Fin 8) : Option GenFrame :=
  let p := s.ports[i]
  let frame (policy : Bool) (kind : Pattern) : GenFrame :=
    { policy := policy, kind := kind, tiles := chainList s.ms.shown.1 i, fill := s.ms.shown.2, nextY := 0 }
  if !p.config.enabled || s.phase == .starting || p.gen.isSome then none
  else
    match p.config.forced with
    | some k => some (frame false k)
    | none =>
      if lossInForce s p then
        match p.config.loss with
        | .dark => none
        | .fill => some (frame true .solid)
        | .pattern => some (frame true p.config.pattern)
      else none

/-- A cadence expiry at one port (R99). -/
def State.cadenceAt (s : State) (i : Fin 8) : State :=
  match s.generatedFrame i with
  | some g => s.atPort i (Port.startGenerated g)
  | none => s

/-! ## The commands -/

/-- READY rises: the stall flag clears and a transfer starts if a line waits (R90, R92). A pin, it is followed even
while the part is held in reset. -/
def execReadyRises (dt : Nat) (i : Fin 8) (s : State) : Host.Outcome State Fault Refusal :=
  .next ((s.elapse dt).atPort i fun p => { p with ready := true, stalled := false })

/-- READY falls: a transfer in progress is not affected; the stall timer may start (R90, R92). -/
def execReadyFalls (dt : Nat) (i : Fin 8) (s : State) : Host.Outcome State Fault Refusal :=
  .next ((s.elapse dt).atPort i fun p => { p with ready := false })

/-- A port line's transfer completes (R90). Without a transfer in progress nothing happens (log 3). -/
def execTransferCompletion (dt : Nat) (i : Fin 8) (s : State) : Host.Outcome State Fault Refusal :=
  s.take dt fun s => if s.ports[i].transferring then s.atPort i Port.complete else s

/-- The frame number of the head line that PORT-STALLED reports, absent for a generated line (R92). -/
def Port.headFrame (p : Port) : Option Word :=
  match p.queue.head? with
  | some l => match l.source with
    | .trunk f _ => some f
    | .policy | .pattern => none
  | none => none

/-- A port's stall timer expires (R92). -/
def execStallTimerExpiry (dt : Nat) (i : Fin 8) (s : State) : Host.Outcome State Fault Refusal :=
  s.take dt fun s =>
    match s.ports[i].stallTimer with
    | none => s
    | some t =>
      let p := s.ports[i]
      let s := (s.reach t).raise (.portStalled i p.queue.length p.headFrame)
      { s with ports := upd s.ports i { p with stallTimer := none, stalled := true } }

/-- The cadence timer expires: it restarts with the period in force, and each port may start a generated frame (R97,
R99). -/
def execCadenceExpiry (dt : Nat) (s : State) : Host.Outcome State Fault Refusal :=
  s.take dt fun s =>
    match s.cadenceTimer with
    | none => s
    | some t =>
      let s := s.reach t
      portIndices.foldl State.cadenceAt { s with cadenceTimer := some (s.now + s.cadencePeriod) }

/-- A generated line is placed (R99). Without a generated frame, or without room, nothing happens (log 3). -/
def execGeneratedLinePlaced (dt : Nat) (i : Fin 8) (s : State) : Host.Outcome State Fault Refusal :=
  s.take dt fun s => s.atPort i Port.place

end Sys2Proof.Machine
end

