-- ==== Sys2Proof/Machine/Engine.lean ====
section
/-!
DEFINITION. The Tile Engine of chapter 4: the frame map (R77, R78), cutting and correcting runs (R79, R80), line
completion (R81 to R83) and port lines (R85).
-/

namespace Sys2Proof.Machine

/-! ## The frame map -/

/-- The frame map an open takes from the state the Map Store left (R77): empty while STARTING or when the selection is
NONE. -/
def State.frameMap (s : State) (f : Word) (w h : Nat) : FrameMap :=
  let shown := if s.phase = .running then s.ms.shown else ([], Rgb.black)
  { number := f, width := w, height := h, tiles := shown.1, fill := shown.2,
    enabled := s.ports.map fun p => p.config.enabled }

/-- A tile extends beyond the frame (R78). -/
def beyondFrame (m : FrameMap) (t : Tile) : Bool := decide (m.width < t.x + t.w) || decide (m.height < t.y + t.h)

/-- The GEOMETRY-MISMATCH of an open, if any (R78). -/
def FrameMap.mismatch (m : FrameMap) : Option Detail :=
  (firstSlot m.tiles fun e => beyondFrame m e.2).map (.geometryMismatch m.number)

/-- The Tile Engine at a frame open (R77, R78). -/
def State.engineOpen (f : Word) (w h : Nat) (s : State) : State :=
  let m := s.frameMap f w h
  { s with te := some ⟨m, 0, []⟩ }.raiseIf m.mismatch

/-! ## Rows and port lines -/

/-- The columns of a tile's row as received so far. -/
def colsOf (rows : List RowProgress) (e : Nat × Tile) : List (Option Rgb) :=
  match rows.find? fun r => r.slot == e.1 with
  | some r => r.cols
  | none => List.replicate e.2.w none

/-- FULL, PATCHED or FILLED (R82). -/
def rowKind (cols : List (Option Rgb)) : RowKind :=
  if cols.all Option.isSome then .full else if cols.any Option.isSome then .patched else .filled

/-- The tile row that completes for a tile on a raster line (R82). -/
def trunkRow (m : FrameMap) (rows : List RowProgress) (y : Nat) (e : Nat × Tile) : TileRow :=
  let cols := colsOf rows e
  { slot := e.1, pos := e.2.pos.1, index := rowIndex e.2 y, kind := rowKind cols,
    pixels := cols.map fun c => c.getD m.fill }

/-- The port line of a raster line for a port of the enabled set, if a tile of its chain list covers the line (R85). -/
def portLine (m : FrameMap) (rows : List RowProgress) (y : Nat) (p : Fin 8) : Option PortLine :=
  if m.enabled[p] then
    match (chainList m.tiles p).filter fun e => e.2.coversLine y with
    | [] => none
    | es => some { source := .trunk m.number .current, y := y, rows := es.map (trunkRow m rows y) }
  else none

/-- A port's line of a raster line handed to it (R85, R91). -/
def State.handPort (m : FrameMap) (rows : List RowProgress) (y : Nat) (s : State) (p : Fin 8) : State :=
  match portLine m rows y p with
  | some l => s.handLine p m.number l
  | none => s

/-- A raster line completes: its port lines are handed, in port order (R82, R85, log 16). -/
def State.completeLine (m : FrameMap) (rows : List RowProgress) (y : Nat) (s : State) : State :=
  portIndices.foldl (State.handPort m rows y) s

/-- `n` raster lines complete from `y` on in ascending order: the first with what it received, the others as skipped
lines (R81, R83). -/
def State.completeLines (m : FrameMap) : Nat → List RowProgress → Nat → State → State
  | 0, _, _, s => s
  | n + 1, rows, y, s => State.completeLines m n [] (y + 1) (s.completeLine m rows y)

/-! ## Cutting runs -/

/-- The source column of a tile column (R79). -/
def sourceColumn (t : Tile) (i : Nat) : Nat := if t.mirrorH then t.x + t.w - 1 - i else t.x + i

/-- A channel value of an incoming pixel (R203). -/
def channel (p : PixelWord) (k : Nat) : Nat := p.toNat / 2 ^ (20 - 10 * k) % 1024

/-- The output value of a channel: through the tile's table, then its brightness (R80). -/
def corrected (tables : Vector Curves 8) (t : Tile) (k v : Nat) : Nat :=
  curveEntry tables[t.table] (1024 * k + v) * (t.bright + 1) / 256

/-- The output pixel of an incoming pixel (R80). -/
def correctPixel (tables : Vector Curves 8) (t : Tile) (p : PixelWord) : Rgb :=
  ⟨corrected tables t 0 (channel p 0), corrected tables t 1 (channel p 1), corrected tables t 2 (channel p 2)⟩

/-- A tile takes pixels from a run: its port is in the enabled set and it covers the line and a column of it (R79). -/
def takesRun (m : FrameMap) (y x0 n : Nat) (e : Nat × Tile) : Bool :=
  m.enabled[e.2.port] && e.2.coversLine y && decide (e.2.x < x0 + n) && decide (x0 < e.2.x + e.2.w)

/-- A tile column after a run: received if its source column lies in the run (R79). -/
def columnAfter (tables : Vector Curves 8) (t : Tile) (x0 : Nat) (pixels : List PixelWord) (i : Nat)
    (before : Option Rgb) : Option Rgb :=
  let c := sourceColumn t i
  if x0 ≤ c then
    match pixels[c - x0]? with
    | some p => some (correctPixel tables t p)
    | none => before
  else before

/-- The row progress of a tile after a run. -/
def rowAfter (tables : Vector Curves 8) (x0 : Nat) (pixels : List PixelWord) (rows : List RowProgress)
    (e : Nat × Tile) : RowProgress :=
  { slot := e.1, cols := (colsOf rows e).zipIdx.map fun c => columnAfter tables e.2 x0 pixels c.2 c.1 }

/-- The row progress after a run's pixels are given to every tile that takes them (R79). -/
def rowsAfter (tables : Vector Curves 8) (m : FrameMap) (y x0 : Nat) (pixels : List PixelWord)
    (rows : List RowProgress) : List RowProgress :=
  let taking := m.tiles.filter (takesRun m y x0 pixels.length)
  rows.filter (fun r => !taking.any fun e => e.1 == r.slot) ++ taking.map (rowAfter tables x0 pixels rows)

/-- An accepted run (R79, R81): the lines above it complete, then its pixels are taken. -/
def State.engineRun (y x0 : Nat) (pixels : List PixelWord) (s : State) : State :=
  match s.te with
  | none => s
  | some k =>
    let rows := if k.front < y then [] else k.rows
    let s := s.completeLines k.map (y - k.front) k.rows k.front
    { s with te := some { k with front := y, rows := rowsAfter s.cu.tables k.map y x0 pixels rows } }

/-! ## The close -/

/-- One past the last raster line a tile of the map covers. -/
def FrameMap.bottom (m : FrameMap) : Nat := (m.tiles.map fun e => e.2.y + e.2.h).foldl max 0

/-- The Tile Engine at the frame close (R83): the remaining rows, all FILLED when the reasons include TRUNCATED. -/
def State.engineClose (truncated : Bool) (s : State) : State :=
  match s.te with
  | none => s
  | some k =>
    { s.completeLines k.map (k.map.bottom - k.front) (if truncated then [] else k.rows) k.front with te := none }

end Sys2Proof.Machine
end

