-- ==== Sys2Proof/Machine/Pending.lean ====
section
/-!
DEFINITION. The application of the pending change set at a frame open (R35 to R41).
-/

namespace Sys2Proof.Machine

/-- A not-before frame is satisfied at the open of frame `f` (R35). -/
def frameReached (f : Word) : Option Word → Bool
  | none => true
  | some n => decide ((f - n).toNat ≤ 32767)

/-- The install part due at an open: present, with HOLD clear (R36). -/
def MapStore.installDue (m : MapStore) : Option (Fin 8) := if m.hold then none else m.install

/-- The switch part due at the open of frame `f`: present, HOLD clear, its not-before frame satisfied (R36). -/
def MapStore.switchDue (m : MapStore) (f : Word) : Option SwitchPart :=
  if m.hold then none else m.switch.filter fun w => frameReached f w.notBefore

/-- Table `t` takes the staging area's content, which becomes free (R37). -/
def CorrectionUnit.install (t : Fin 8) (c : CorrectionUnit) : CorrectionUnit :=
  match c.staging with
  | .held _ curves => { tables := upd c.tables t curves, staging := .free }
  | .owned .. | .free => c

/-- The selection a switch sets (R38). -/
def Target.selection : Target → Selection
  | .context c => .context c
  | .sequence es => .sequence es 0 ((es.head?.map SeqEntry.count).getD 0)

/-- The context a switch makes active (R39). -/
def Target.firstContext : Target → Option (Fin 4)
  | .context c => some c
  | .sequence es => es.head?.map SeqEntry.ctx

/-- A SEQUENCE advances at an open without a switch (R40). -/
def Selection.advance : Selection → Selection
  | .sequence es i r =>
    if r ≤ 1 then
      let j := if i + 1 < es.length then i + 1 else 0
      .sequence es j ((es[j]?.map SeqEntry.count).getD 0)
    else .sequence es i (r - 1)
  | sel => sel

/-- The Map Store after an open's application (R36 to R40). -/
def MapStore.applied (m : MapStore) (f : Word) : MapStore :=
  let m' := { m with install := if m.installDue.isSome then none else m.install }
  match m.switchDue f with
  | some w => { m' with selection := w.target.selection, switch := none }
  | none => { m' with selection := m.selection.advance }

/-- The CHANGE-APPLIED of an open, if a step took place (R39). -/
def MapStore.changeApplied (m : MapStore) (f : Word) : Option Detail :=
  match m.switchDue f, m.installDue with
  | none, none => none
  | w, t => some (.changeApplied f (w.bind fun w => w.target.firstContext) t)

/-- The pending change set applied at the open of frame `f` (R36). -/
def State.applyPending (f : Word) (s : State) : State :=
  { s with ms := s.ms.applied f,
           cu := match s.ms.installDue with
             | some t => s.cu.install t
             | none => s.cu }.raiseIf (s.ms.changeApplied f)

end Sys2Proof.Machine
end

