-- ==== Sys2Proof/Machine/Tracker.lean ====
section
/-!
DEFINITION. The Frame Tracker of chapter 3: frames, runs, damage, period and lock, and the commands of the forward lane
that carry the picture, with the expiry of its five timers.
-/

namespace Sys2Proof.Machine

/-! ## Damage and the close -/

def Damage.union (a b : Damage) : Damage :=
  ⟨a.range || b.range, a.order || b.order, a.lostRuns || b.lostRuns, a.truncated || b.truncated⟩

def Damage.isEmpty (d : Damage) : Bool := !d.range && !d.order && !d.lostRuns && !d.truncated

/-- The reason TRUNCATED alone. -/
def Damage.ofTruncated : Damage := { Damage.empty with truncated := true }

/-- The frame-close event at the tile ports: a pending release completes (R101). -/
def State.portsClose (s : State) : State := s.atPorts fun p => { p with releasePending := false }

/-- The current frame closes with more reasons added (R55). In BLANKING nothing happens. -/
def State.closeFrame (more : Damage) (s : State) : State :=
  match s.ft.frame with
  | none => s
  | some f =>
    let d := s.ft.damage.union more
    let s :=
      if d.isEmpty then { s with ft := { s.ft with damage := d, lastClose := some .complete } }
      else
        { s with ft := { s.ft with damage := d, lastClose := some .damaged,
                                   damagedCount := s.ft.damagedCount + 1 } }.raise (.frameDamaged f.number d)
    let s := (s.engineClose d.truncated).portsClose
    { s with ft := { s.ft with frame := none, lineGap := none } }

/-! ## Lock -/

/-- FRAME-LOCK-CHANGED, if the lock state differs from what it was (R64). -/
def State.noticeLock (before : LockState) (s : State) : State :=
  if s.ft.lock = before then s else s.raise (.lockChanged before s.ft.lock s.ft.lastNumber)

/-- Entry to a lock state: the regular count is 0 and the lock timers are those of the state (R59 to R63). -/
def Tracker.enter (lock : LockState) (t : Tracker) : Tracker :=
  { t with lock := lock, regular := 0, acquisition := none, holdover := none, loss := none }

/-- Entry to ACQUIRING, with its timer (R61). -/
def Tracker.acquire (now : Nat) (t : Tracker) : Tracker :=
  { t.enter .acquiring with acquisition := some (now + Config.acquisitionTimeout) }

/-- LOCKED with a reference period, and the holdover deadline from this open (R62, R65). -/
def Tracker.lockAt (now period : Nat) (t : Tracker) : Tracker :=
  { t.enter .locked with reference := some period, holdover := some (now + period + period / 8) }

/-- What any intact forward-lane packet does to the Frame Tracker: the signal timer restarts, and NO-SIGNAL becomes
ACQUIRING (R45, R60). -/
def Tracker.packet (now : Nat) (t : Tracker) : Tracker :=
  let t := if t.lock = .noSignal then t.acquire now else t
  { t with signal := some (now + Config.signalTimeout) }

/-- An intact packet that opens no frame reaches the Frame Tracker; a change of lock state is raised before the
packet's own effect (R45, R60, log 31). -/
def State.arrive (s : State) : State := { s with ft := s.ft.packet s.now }.noticeLock s.ft.lock

/-! ## Opening a frame -/

/-- The period at an open, in whole microseconds, at most 2,000,000 (R57). -/
def Tracker.period (now : Nat) (t : Tracker) : Option Nat := t.lastOpen.map fun t0 => min (now - t0) 2000000

/-- An open with this period is regular (R58). -/
def Tracker.regularOpen (t : Tracker) (period : Nat) : Bool :=
  t.lastClose == some .complete && decide (1000 ≤ period) && decide (period ≤ 1000000) &&
    match t.measured with
    | some m => decide (((period - m) + (m - period)) * 64 ≤ m)
    | none => false

/-- The lock state's change at a frame open (R59, R61 to R63). -/
def Tracker.lockOpen (now : Nat) (t : Tracker) : Tracker :=
  let regular := match t.period now with
    | some p => if t.regularOpen p then some p else none
    | none => none
  match t.lock, regular with
  | .acquiring, some p =>
    if t.regular = 0 then { t.acquire now with regular := 1 } else t.lockAt now p
  | .acquiring, none => t.acquire now
  | .locked, some p => t.lockAt now p
  | .locked, none => t.acquire now
  | .holdover, _ => t.acquire now
  | .lost, _ => t.acquire now
  | .noSignal, _ => t

/-- The Frame Tracker's steps 2 to 5 of a frame open (R46). -/
def Tracker.openFrame (now : Nat) (f : Word) (w h : Nat) (t : Tracker) : Tracker :=
  let measured := (t.period now).or t.measured
  let t := t.lockOpen now
  { t with frame := some ⟨f, w, h⟩, lastLine := none, lastEnd := 0, runs := 0, damage := Damage.empty,
           measured := measured, lastOpen := some now, lastNumber := f, opened := t.opened + 1,
           lineGap := some (now + Config.lineGapTimeout) }

/-- The frame-open event: Map Store, then Tile Engine, then tile ports (R48). -/
def State.openEvent (f : Word) (w h : Nat) (s : State) : State :=
  ((s.applyPending f).engineOpen f w h).atPorts (Port.open f)

/-- The width or height lies in 1..8192. -/
def goodSize (n : Nat) : Bool := decide (1 ≤ n) && decide (n ≤ 8192)

/-- An intact FRAME-START (R45 to R48, R60, R64): with good geometry it opens a frame, and a change of lock state is
raised after the open; with bad geometry it closes an open frame and raises FRAME-DAMAGED with BAD-GEOMETRY. -/
def State.frameStart (f : Word) (w h : Nat) (s : State) : State :=
  if goodSize w && goodSize h then
    let before := s.ft.lock
    let s := { s with ft := s.ft.packet s.now }
    let s := s.closeFrame Damage.ofTruncated
    let s := { s with ft := s.ft.openFrame s.now f w h }
    (s.openEvent f w h).noticeLock before
  else
    let s := s.arrive.closeFrame Damage.ofTruncated
    { s with ft := { s.ft with damagedCount := s.ft.damagedCount + 1 } }.raise (.badGeometry f)

/-! ## Runs -/

/-- A LINE belongs to the current frame (R49). -/
def Tracker.owns (t : Tracker) (f : Word) : Option OpenFrame := t.frame.filter fun o => o.number == f

/-- The RANGE check fails for a run (R50). -/
def runRangeFails (o : OpenFrame) (y x0 n : Nat) : Bool :=
  !(decide (1 ≤ n) && decide (n ≤ Config.maxRun)) || decide (o.height ≤ y) || decide (o.width < x0 + n)

/-- The ORDER check fails for a run (R51). -/
def Tracker.orderFails (t : Tracker) (y x0 : Nat) : Bool :=
  match t.lastLine with
  | some l => decide (y < l) || (y == l && decide (x0 < t.lastEnd))
  | none => false

/-- A LINE of the current frame: counted, and checked; accepted or discarded (R49 to R52). -/
def State.currentLine (o : OpenFrame) (y x0 : Nat) (pixels : List PixelWord) (s : State) : State :=
  let s := { s with ft := { s.ft with lineGap := some (s.now + Config.lineGapTimeout),
                                      runs := min 65535 (s.ft.runs + 1) } }
  if runRangeFails o y x0 pixels.length then
    { s with ft := { s.ft with damage := { s.ft.damage with range := true } } }
  else if s.ft.orderFails y x0 then
    { s with ft := { s.ft with damage := { s.ft.damage with order := true } } }
  else
    let s := s.engineRun y x0 pixels
    { s with ft := { s.ft with lastLine := some y, lastEnd := x0 + pixels.length } }

/-- A LINE at the Frame Tracker (R49). -/
def State.line (f : Word) (y x0 : Nat) (pixels : List PixelWord) (s : State) : State :=
  match s.ft.owns f with
  | some o => s.currentLine o y x0 pixels
  | none => s

/-- A FRAME-END at the Frame Tracker (R53). -/
def State.frameEnd (f runs : Word) (s : State) : State :=
  match s.ft.owns f with
  | some _ => s.closeFrame { Damage.empty with lostRuns := runs.toNat != s.ft.runs }
  | none => s

/-! ## The commands -/

/-- An intact FRAME-START (R46, R47), also forwarded (R136). -/
def execFrameStart (dt : Nat) (f w h : Word) (s : State) : Host.Outcome State Fault Refusal :=
  s.receive dt fun s => (s.forward (frameStartPacket f w h)).frameStart f w.toNat h.toNat

/-- An intact LINE (R49 to R52), also forwarded. -/
def execLine (dt : Nat) (f y x0 : Word) (pixels : List PixelWord) (s : State) : Host.Outcome State Fault Refusal :=
  s.receive dt fun s => (s.forward (linePacket f y x0 pixels)).arrive.line f y.toNat x0.toNat pixels

/-- An intact FRAME-END (R53), also forwarded. -/
def execFrameEnd (dt : Nat) (f runs : Word) (s : State) : Host.Outcome State Fault Refusal :=
  s.receive dt fun s => (s.forward (frameEndPacket f runs)).arrive.frameEnd f runs

/-- An intact IDLE (R45), also forwarded. -/
def execIdle (dt : Nat) (s : State) : Host.Outcome State Fault Refusal :=
  s.receive dt fun s => (s.forward idlePacket).arrive

/-- An intact packet of another kind (R136), forwarded and otherwise ignored. -/
def execForwardUnknownKind (dt : Nat) (bytes : List Byte) (s : State) : Host.Outcome State Fault Refusal :=
  s.receive dt fun s => (s.forward bytes).arrive

/-- The signal timer expires: NO-SIGNAL, the open frame closed, then the notice (R56, R60, R64). -/
def execSignalTimerExpiry (dt : Nat) (s : State) : Host.Outcome State Fault Refusal :=
  s.take dt fun s =>
    match s.ft.signal with
    | none => s
    | some t =>
      let s := s.reach t
      let before := s.ft.lock
      let s := { s with ft := { s.ft.enter .noSignal with signal := none } }
      (s.closeFrame Damage.ofTruncated).noticeLock before

/-- The line-gap timer expires: the frame closes TRUNCATED (R54). -/
def execLineGapTimerExpiry (dt : Nat) (s : State) : Host.Outcome State Fault Refusal :=
  s.take dt fun s =>
    match s.ft.lineGap with
    | none => s
    | some t =>
      let s := s.reach t
      { s with ft := { s.ft with lineGap := none } }.closeFrame Damage.ofTruncated

/-- The acquisition timer expires: LOST (R61). -/
def execAcquisitionTimerExpiry (dt : Nat) (s : State) : Host.Outcome State Fault Refusal :=
  s.take dt fun s =>
    match s.ft.acquisition with
    | none => s
    | some t =>
      let s := s.reach t
      { s with ft := s.ft.enter .lost }.noticeLock s.ft.lock

/-- The holdover deadline expires: HOLDOVER, with the loss timer at four reference periods (R62). -/
def execHoldoverDeadlineExpiry (dt : Nat) (s : State) : Host.Outcome State Fault Refusal :=
  s.take dt fun s =>
    match s.ft.holdover with
    | none => s
    | some t =>
      let s := s.reach t
      { s with ft := { s.ft.enter .holdover with loss := s.ft.reference.map fun r => s.now + 4 * r } }.noticeLock
        s.ft.lock

/-- The loss timer expires: LOST (R63). -/
def execLossTimerExpiry (dt : Nat) (s : State) : Host.Outcome State Fault Refusal :=
  s.take dt fun s =>
    match s.ft.loss with
    | none => s
    | some t =>
      let s := s.reach t
      { s with ft := s.ft.enter .lost }.noticeLock s.ft.lock

end Sys2Proof.Machine
end

