-- ==== Sys2Proof/Machine/Store.lean ====
section
/-!
DEFINITION. The record store's banks and records (R106 to R112, R207): accesses and how they end or are cut off, the
accesses of each operation, record bodies, and the directory.
-/

namespace Sys2Proof.Machine

/-! ## Banks and accesses (R106) -/

def BankId.other : BankId → BankId
  | .A => .B | .B => .A

def RecordStore.bank (r : RecordStore) : BankId → Cells Word
  | .A => r.bankA | .B => r.bankB

def RecordStore.setBank (r : RecordStore) (b : BankId) (c : Cells Word) : RecordStore :=
  match b with
  | .A => { r with bankA := c }
  | .B => { r with bankB := c }

/-- The state words, shared by banks and records (R207). -/
def wordFilling : Word := 0x0FFF
def wordActive : Word := 0x00FF
def wordRetired : Word := 0x0000
def marker : Word := 0xC35A

/-- A word reads as one of the four states: ERASED, FILLING or WRITING, ACTIVE or VALID, RETIRED or SUPERSEDED (R107,
R109, R207). -/
def namesState (w : Word) : Bool := w == 0xFFFF || w == wordFilling || w == wordActive || w == wordRetired

/-- A bank's header is ACTIVE (R107). -/
def headerActive (c : Cells Word) : Bool := bankRead c 0 == marker && bankRead c 2 == wordActive

/-- A bank's generation. -/
def headerGeneration (c : Cells Word) : Word := bankRead c 1

/-- What a state word is programmed for. Section 6.9 limits what a cut leaves of it (R127), and R124 what a failed
compaction leaves of bank X. -/
inductive StateUse where
  /-- a record of its own save, deletion, tidying or copy, a fresh header, or a bank retired -/
  | ordinary
  /-- the record that a save replaces -/
  | replaced
  /-- the FILLING header of a compaction (step 2) -/
  | filling
  /-- the ACTIVE header of a compaction (step 4) -/
  | filled
deriving DecidableEq, Repr

/-- An access that changes a bank. -/
inductive Access where
  /-- a word that is no state word is programmed -/
  | program (bank : BankId) (addr : Nat) (word : Word)
  /-- the state word of a bank or a record is programmed -/
  | state (bank : BankId) (addr : Nat) (word : Word) (use : StateUse)
  /-- a bank is erased -/
  | erase (bank : BankId)
deriving DecidableEq, Repr

def Access.bank : Access → BankId
  | .program b .. => b | .state b .. => b | .erase b => b

/-- How an access ended: as it should, with a mishap before its verify (R106), or cut off by a reset (R127). -/
inductive Ending where
  | made
  | faulty (m : Mishap)
  | cut (m : Mishap)
deriving DecidableEq, Repr

/-- The ending of access number `i` of an operation, with the mishap of one of its accesses. -/
def Ending.ofFault (m : Option Mishap) (i : Nat) : Ending :=
  match m.filter fun m => m.step == i with
  | some m => .faulty m
  | none => .made

/-- A state word cut off between `old` and `new` can be left reading `v`: as before, as intended, or as none of the four
states (R106, R127). The table of R127 names the two VALID records of a save alone, so the word of the replaced one does
not become unreadable, and it has no ACTIVE bank X in steps 1 to 4 of a compaction (log 49). -/
def StateUse.admits (use : StateUse) (old new v : Word) : Bool :=
  match use with
  | .ordinary | .filling => v == old || v == new || !namesState v
  | .replaced => v == old || v == new
  | .filled => v == old || !namesState v

/-- What a state word reads when its programming ends. Programming clears bits and sets none (R106), and a reading that
the operation does not admit leaves the word as it was. A word that fails its verify reads anything, but that of a bank
X only what a cut of FILLING admits (R124, log 49). -/
def StateUse.reading (use : StateUse) (old new : Word) : Ending → Word
  | .made => old &&& new
  | .faulty m =>
    let v := old &&& m.word
    match use with
    | .ordinary | .replaced => v
    | .filling | .filled => if StateUse.filling.admits old new v then v else old
  | .cut m =>
    let v := old &&& m.word
    if use.admits old new v then v else old

/-- A header under erasure still reads ACTIVE only as it was; a reading that would make it ACTIVE anew is left with an
erased state word (R124, R127, log 49). -/
def keepHeader (before after : Cells Word) : Cells Word :=
  if headerActive after && !(headerActive before && headerGeneration before == headerGeneration after) then
    cellWrite erased 2 0xFFFF after
  else after

/-- What a bank holds after an access, by how it ended (R106, log 9). Programming clears bits and sets none. -/
def Access.result (a : Access) (e : Ending) (c : Cells Word) : Cells Word :=
  match a with
  | .program _ addr w =>
    let v := match e with | .made => w | .faulty m | .cut m => m.word
    cellWrite erased addr (bankRead c addr &&& v) c
  | .state _ addr w use => cellWrite erased addr (use.reading (bankRead c addr) w e) c
  | .erase _ =>
    match e with
    | .made => []
    | .faulty m | .cut m => keepHeader c (cellsOf erased (m.cells.filter fun e => decide (e.1 < Config.bankWords)))

/-- Where verification fails after an access: the programmed word, or the lowest word not erased (R106, log 10). -/
def Access.failure (a : Access) (c : Cells Word) : Option Nat :=
  match a with
  | .program _ addr w | .state _ addr w _ => if bankRead c addr = w then none else some addr
  | .erase _ => c.head?.map Prod.fst

/-- A verify failure: the number of the access, its bank and the word address. -/
structure VerifyFailure where
  step : Nat
  bank : BankId
  addr : Nat
deriving DecidableEq, Repr

/-- Accesses made and verified one after another, from number `i`, stopping at the first verify failure; `m` is the
mishap of one of them. -/
def RecordStore.perform (m : Option Mishap) : Nat → List Access → RecordStore → RecordStore × Option VerifyFailure
  | _, [], r => (r, none)
  | i, a :: as, r =>
    let c := a.result (Ending.ofFault m i) (r.bank a.bank)
    let r := r.setBank a.bank c
    match a.failure c with
    | some addr => (r, some ⟨i, a.bank, addr⟩)
    | none => RecordStore.perform m (i + 1) as r

/-- Accesses cut off by a reset: those before number `cut.step` were made, that one is left as the mishap says, and no
later one began (R106, R127). -/
def RecordStore.cutOff (cut : Mishap) : Nat → List Access → RecordStore → RecordStore
  | _, [], r => r
  | i, a :: as, r =>
    if i < cut.step then RecordStore.cutOff cut (i + 1) as (r.setBank a.bank (a.result .made (r.bank a.bank)))
    else r.setBank a.bank (a.result (.cut cut) (r.bank a.bank))

/-! ## Headers and records (R107, R109, R207) -/

/-- A fresh header programmed directly to ACTIVE (R107). -/
def freshHeader (b : BankId) (g : Word) : List Access :=
  [.program b 0 marker, .program b 1 g, .state b 2 wordActive .ordinary]

/-- Generation `g1` is newer than `g2` (R108). -/
def newer (g1 g2 : Word) : Bool := decide (1 ≤ (g1 - g2).toNat) && decide ((g1 - g2).toNat ≤ 32767)

/-- The generation after (R108). -/
def nextGeneration (g : Word) : Word := if g = 0xFFFF then 1 else g + 1

/-- The body words of a record. -/
def recordBody (c : Cells Word) (addr len : Nat) : List Word := cellReadList erased c (addr + 4) len

/-- The check word in a record's header matches its body (R109). -/
def recordIntact (c : Cells Word) (addr len : Nat) : Bool := bankRead c (addr + 3) == crcWords (recordBody c addr len)

/-- Words programmed from an address on. -/
def programWords (b : BankId) : Nat → List Word → List Access
  | _, [] => []
  | a, w :: ws => .program b a w :: programWords b (a + 1) ws

/-- A record programmed: header with state WRITING, body, then state VALID (R117, R123). -/
def writeRecord (b : BankId) (addr : Nat) (key len check : Word) (body : List Word) : List Access :=
  .state b addr wordFilling .ordinary :: programWords b (addr + 1) ([key, len, check] ++ body) ++
    [.state b addr wordActive .ordinary]

/-! ## The directory (R111) -/

/-- A key's entry. -/
def RecordStore.entry (r : RecordStore) (k : RecKey) : Option DirEntry := r.directory[k.idx]

def RecordStore.setEntry (r : RecordStore) (k : RecKey) (e : Option DirEntry) : RecordStore :=
  { r with directory := upd r.directory k.idx e }

/-- The keys that have a live record, with their entries. -/
def RecordStore.live (r : RecordStore) : List (RecKey × DirEntry) :=
  RecKey.all.filterMap fun k => (r.entry k).map fun e => (k, e)

/-- Insertion by address. -/
def insertByAddr (e : RecKey × DirEntry) : List (RecKey × DirEntry) → List (RecKey × DirEntry)
  | [] => [e]
  | f :: es => if e.2.addr < f.2.addr then e :: f :: es else f :: insertByAddr e es

/-- The live records in ascending address order. -/
def RecordStore.liveByAddr (r : RecordStore) : List (RecKey × DirEntry) :=
  r.live.foldl (fun l e => insertByAddr e l) []

/-! ## The accesses of an operation -/

/-- Live records copied to bank `x` from an address on (R123 step 3). -/
def copyRecords (src : Cells Word) (x : BankId) : Nat → List (RecKey × DirEntry) → List Access
  | _, [] => []
  | a, (_, e) :: es =>
    writeRecord x a (bankRead src (e.addr + 1)) (bankRead src (e.addr + 2)) (bankRead src (e.addr + 3))
      (recordBody src e.addr e.len) ++ copyRecords src x (a + 4 + e.len) es

/-- The directory after compaction: each entry at the address of its copy (R123 step 6). -/
def movedEntries : Nat → List (RecKey × DirEntry) → List (RecKey × DirEntry)
  | _, [] => []
  | a, (k, e) :: es => (k, { e with addr := a }) :: movedEntries (a + 4 + e.len) es

/-- The accesses that change the banks, in order, of an operation in flight (R117, R122, R123, R126). -/
def RecordStore.accesses (r : RecordStore) (op : Operation) : List Access :=
  match op.kind, op.recKey with
  | .saveContext, some k | .saveTable, some k | .saveSettings, some k =>
    writeRecord r.active op.addr (keyWord k) (wordOf op.body.length) (crcWords op.body) op.body ++
      (match r.entry k with
       | some e => [.state r.active e.addr wordRetired .replaced]
       | none => [])
  | .deleteRecord, some k =>
    match r.entry k with
    | some e => [.state r.active e.addr wordRetired .ordinary]
    | none => []
  | .compact, _ =>
    let x := r.active.other
    [.erase x, .program x 0 marker, .program x 1 (nextGeneration r.generation), .state x 2 wordFilling .filling] ++
      copyRecords (r.bank r.active) x Config.firstRecord r.liveByAddr ++
      [.state x 2 wordActive .filled, .state r.active 2 wordRetired .ordinary]
  | .eraseStore, _ => [.erase .A, .erase .B] ++ freshHeader .A 1
  | _, _ => []

/-- The accesses of the start-up load's present step (R129, R132). -/
def RecordStore.loadAccesses (r : RecordStore) (l : Load) : List Access :=
  match l.step with
  | .headers =>
    if headerActive r.bankA || headerActive r.bankB then [] else .erase .A :: freshHeader .A 1
  | .records [] => l.stale.map fun a => .state r.active a wordRetired .ordinary
  | _ => []

/-- The accesses in progress: the load's while it runs, else the operation's. -/
def RecordStore.inProgress (r : RecordStore) : List Access :=
  match r.load, r.op with
  | some l, _ => r.loadAccesses l
  | none, some op => r.accesses op
  | none, none => []

/-- The banks as a reset that cuts off what is in progress leaves them (R106, R127, R128). -/
def RecordStore.cut (r : RecordStore) (cut : Mishap) : RecordStore := RecordStore.cutOff cut 0 r.inProgress r

/-! ## Bodies (R110, R207) -/

/-- A table's body: the three curves. -/
def tableBody (t : Curves) : List Word := (List.range Config.tableEntries).map fun k => wordOf (curveEntry t k)

/-- The curves of a table's body, where its length and every entry are in form (R121, R131). -/
def curvesOfBody (ws : List Word) : Option Curves :=
  if ws.length = Config.tableEntries ∧ ws.all (fun w => decide (w.toNat < 4096)) then
    some (curvesOf (ws.map BitVec.toNat))
  else none

/-- What the SETTINGS record holds (R110). -/
structure Settings where
  ports   : Vector PortConfig 8
  cadence : Nat
  classes : Vector (Fin 4) 16
  start   : Option Target
deriving DecidableEq, Repr

/-- A port's word (R207). -/
def portWord (c : PortConfig) : Word :=
  wordOf ((if c.enabled then 4096 else 0) + lossCode c.loss * 256 + patternCode c.pattern * 16 + forcedCode c.forced)

/-- A port's configuration, where every item is in range. -/
def portOfWord (w : Word) : Option PortConfig :=
  match boolOf (bitsOf w 15 12), lossOf (bitsOf w 11 8), patternOf (bitsOf w 7 4), forcedOf (bitsOf w 3 0) with
  | some e, some l, some p, some f => some ⟨e, l, p, f⟩
  | _, _, _, _ => none

/-- The kind code of a start selection (R207). -/
def startCode : Option Target → Nat
  | none => 0 | some (.context _) => 1 | some (.sequence _) => 2

/-- The entries of a start selection: a CONTEXT is entry 0, with repeat count 0 (R207, log 25). -/
def startEntries : Option Target → List SeqEntry
  | none => []
  | some (.context c) => [⟨c, 0⟩]
  | some (.sequence es) => es

/-- Eight classes in one word, the lower kind in the higher bits (R207). -/
def classesWord (cs : List (Fin 4)) : Word := wordOf (cs.foldl (fun n c => n * 4 + c.1) 0)

/-- The sixteen words of the settings (R207). -/
def settingsBody (st : Settings) : List Word :=
  let es := startEntries st.start
  let count i := (es[i]?.map SeqEntry.count).getD 0
  let ctx i := (es[i]?.map fun e => e.ctx.1).getD 0
  let n := match st.start with | some (.sequence es) => es.length - 1 | _ => 0
  st.ports.toList.map portWord ++
    [wordOf (st.cadence + startCode st.start * 256 + n * 1024),
     classesWord (st.classes.toList.take 8), classesWord (st.classes.toList.drop 8),
     wordOf (count 0 * 256 + count 1), wordOf (count 2 * 256 + count 3), wordOf (count 4 * 256 + count 5),
     wordOf (count 6 * 256 + count 7),
     wordOf (([0, 1, 2, 3, 4, 5, 6, 7] : List Nat).foldl (fun v i => v * 4 + ctx i) 0)]

/-- The class of notice kind `i` among the words 9 and 10. -/
def classOf (w9 w10 : Word) (i : Fin 16) : Fin 4 :=
  let w := if i.1 < 8 then w9 else w10
  ⟨w.toNat / 4 ^ (7 - i.1 % 8) % 4, Nat.mod_lt _ (by decide)⟩

/-- The entry `i` of a start selection. -/
def startEntry (counts : List Word) (w15 : Word) (i : Nat) : SeqEntry :=
  let w := counts.getD (i / 2) 0
  ⟨⟨w15.toNat / 4 ^ (7 - i % 8) % 4, Nat.mod_lt _ (by decide)⟩, if i % 2 = 0 then highByte w else lowByte w⟩

/-- The start selection the words spell, `none` where an item is out of range (R207, log 25). -/
def startOfWords (w8 : Word) (counts : List Word) (w15 : Word) : Option (Option Target) :=
  match bitsOf w8 9 8 with
  | 0 => some none
  | 1 => some (some (.context (startEntry counts w15 0).ctx))
  | 2 =>
    let es := (List.range (bitsOf w8 12 10 + 1)).map (startEntry counts w15)
    if es.all fun e => decide (0 < e.count) then some (some (.sequence es)) else none
  | _ => none

/-- The settings a body spells, where the length is 16 and every item is in range (R131, R207). -/
def settingsOfBody (ws : List Word) : Option Settings :=
  match ws with
  | [p0, p1, p2, p3, p4, p5, p6, p7, w8, w9, w10, w11, w12, w13, w14, w15] =>
    match portOfWord p0, portOfWord p1, portOfWord p2, portOfWord p3, portOfWord p4, portOfWord p5, portOfWord p6,
      portOfWord p7, startOfWords w8 [w11, w12, w13, w14] w15 with
    | some c0, some c1, some c2, some c3, some c4, some c5, some c6, some c7, some start =>
      if bitsOf w8 15 13 = 0 ∧ bitsOf w8 7 4 = 0 then
        some { ports := #v[c0, c1, c2, c3, c4, c5, c6, c7], cadence := bitsOf w8 3 0,
               classes := Vector.ofFn (classOf w9 w10), start := start }
      else none
    | _, _, _, _, _, _, _, _, _ => none
  | _ => none

/-- The selection saved as the start selection (R116). -/
def Selection.saved : Selection → Option Target
  | .none => Option.none
  | .context c => some (.context c)
  | .sequence es _ _ => some (.sequence es)

/-- The settings SAVE-SETTINGS takes (R116). -/
def State.settings (s : State) : Settings :=
  { ports := s.ports.map Port.config, cadence := s.cadence, classes := s.ns.slots.map NoticeSlot.cls,
    start := s.ms.selection.saved }

end Sys2Proof.Machine
end

