-- ==== Sys2Proof/Machine/Sessions.lean ====
section
/-!
DEFINITION. Taking a CONTROL packet (R136, R151 to R156), the sequence rules (R159, R160), sessions and leases (R157 to
R168), and the commands of the session family.
-/

namespace Sys2Proof.Machine

/-! ## How a request reaches its owning block -/

/-- Who a request is executed for (R151, R155, R156). -/
inductive Caller where
  | session (slot : Fin 4) (key : Byte)
  | sessionless
  | broadcast
deriving DecidableEq, Repr

/-- A request at its owning block: the caller, the response slot reserved for it, the operand bytes. A broadcast
reserves no slot. -/
structure Call where
  caller : Caller
  rq     : Option (Fin 8)
  ops    : List Byte
deriving DecidableEq, Repr

/-- What a block answers: at once; at once but not cached (R161, R199); or accepted as a long request (R166). -/
inductive Reply where
  | answer (st : Status) (res : List Byte)
  | uncached (st : Status) (res : List Byte)
  | accepted
deriving DecidableEq, Repr

/-- How an owning block executes a request. -/
abbrev Body := Call → State → State × Reply

/-- The calling session's key. -/
def Call.key (k : Call) : Option Byte :=
  match k.caller with
  | .session _ key => some key
  | .sessionless | .broadcast => none

/-- An answer that changes nothing. -/
def refuse (st : Status) (s : State) : State × Reply := (s, .answer st [])

/-- OK without results. -/
def done (s : State) : State × Reply := (s, .answer .ok [])

/-- The kinds that may be sent sessionless (R156). -/
def maySessionless (k : ReqKind) : Bool :=
  k ∈ [.readStatus, .readTile, .readPort, .readStoreStatus, .openSession, .enumerate, .selectContext, .selectSequence,
       .cancelSelect, .hold, .release, .forcePattern, .setCadence, .reset]

/-! ## Session slots -/

def sessionIndices : List (Fin 4) := [0, 1, 2, 3]

/-- The slot and session that hold a key (R157). -/
def State.findSession (key : Byte) (s : State) : Option (Fin 4 × Session) :=
  sessionIndices.findSome? fun i =>
    match s.sessions[i] with
    | some d => if d.key = key then some (i, d) else none
    | none => none

/-- The lowest FREE session slot (R158). -/
def State.freeSession (s : State) : Option (Fin 4) := sessionIndices.find? fun i => s.sessions[i].isNone

/-- A session that is open changed. -/
def State.modSession (i : Fin 4) (f : Session → Session) (s : State) : State :=
  { s with sessions := upd s.sessions i (s.sessions[i].map f) }

/-- READY with the full lease of its code and a cached response (R159, R163). -/
def Session.renewed (now : Nat) (cache : Cached) (d : Session) : Session :=
  { d with state := .ready (now + leaseLength d.lease) cache }

/-! ## Answers -/

/-- A response placed in the slot its request reserved: key, sequence and kind as received (R153, R177). -/
def State.respond (code : Byte) (c : Ctl) (rq : Fin 8) (st : Status) (res : List Byte) (s : State) : State :=
  s.fill rq c.key c.seq code st res

/-- What an executed session request leaves in its response slot and session (R159, R160, R166). `held` is the lease
time that stood when the request was taken. -/
def State.conclude (kind : ReqKind) (c : Ctl) (rq : Fin 8) (i : Fin 4) (held : Nat) (r : State × Reply) : State :=
  match r.2 with
  | .answer st res =>
    (r.1.respond (reqCode kind) c rq st res).modSession i fun d =>
      { d.renewed r.1.now ⟨reqCode kind, c.seq, st, res⟩ with last := c.seq }
  | .uncached st res => r.1.respond (reqCode kind) c rq st res
  | .accepted => r.1.modSession i fun d => { d with last := c.seq, state := .waiting held kind c.seq rq }

/-- A cached response sent again: its status and results, under the repeat's own kind as received (R153, R159, R177); the
lease restarts in full. -/
def State.resend (code : Byte) (c : Ctl) (rq : Fin 8) (i : Fin 4) (cache : Cached) (s : State) : State :=
  (s.respond code c rq cache.status cache.results).modSession i fun d => d.renewed s.now cache

/-- A session request handled by its sequence number (R159). -/
def State.sequenced (kind : ReqKind) (body : Body) (c : Ctl) (rq : Fin 8) (s : State) : State :=
  match s.findSession c.key with
  | none => s.respond (reqCode kind) c rq .noSession []
  | some (i, d) =>
    match d.state with
    | .ready leaseEnd cache =>
      if c.seq = d.last then s.resend (reqCode kind) c rq i cache
      else if c.seq = d.last + 1 then
        State.conclude kind c rq i (leaseEnd - s.now) (body ⟨.session i c.key, some rq, c.ops⟩ s)
      else s.respond (reqCode kind) c rq .outOfSequence []
    | .waiting .. =>
      if c.seq = d.last then s.respond (reqCode kind) c rq .inProgress []
      else if c.seq = d.last + 1 then s.respond (reqCode kind) c rq .busy []
      else s.respond (reqCode kind) c rq .outOfSequence []

/-- A request executed sessionless: answered, without a session effect (R153 step 4, R156). -/
def State.unsequenced (kind : ReqKind) (c : Ctl) (rq : Fin 8) (r : State × Reply) : State :=
  match r.2 with
  | .answer st res | .uncached st res => r.1.respond (reqCode kind) c rq st res
  | .accepted => r.1

/-! ## Taking a CONTROL packet -/

/-- An addressed request takes a response slot before any other test; without a free one, or while a FULL reset is
pending, it is dropped without effect (R152, R201). -/
def State.addressed (code : Byte) (c : Ctl) (handle : Fin 8 → State → State) (s : State) : State :=
  if s.fullReset.isSome then s
  else
    match s.rq.freeSlot with
    | none => s
    | some rq => handle rq { s with rq := s.rq.reserve rq c.key c.seq code }

/-- Steps 2 and 4 to 6 of R153, for a known kind other than OPEN-SESSION. -/
def State.tested (kind : ReqKind) (body : Body) (c : Ctl) (rq : Fin 8) (s : State) : State :=
  if s.phase = .starting ∧ kind ≠ .readStatus then s.respond (reqCode kind) c rq .starting []
  else if c.key = 0 then
    if maySessionless kind then State.unsequenced kind c rq (body ⟨.sessionless, some rq, c.ops⟩ s)
    else s.respond (reqCode kind) c rq .noSession []
  else s.sequenced kind body c rq

/-- A broadcast: executed without an answer when its kind is one of R155 and the phase is RUNNING, ignored otherwise,
and while a FULL reset is pending (R155, R201). -/
def State.broadcast (kind : ReqKind) (body : Body) (c : Ctl) (s : State) : State :=
  if kind.broadcasts ∧ s.phase = .running ∧ s.fullReset = none then (body ⟨.broadcast, none, c.ops⟩ s).1 else s

/-- A CONTROL packet by its destination: every one reaches the Frame Tracker, and every one but an addressed one is
forwarded (R136, R137). -/
def State.control (code : Byte) (c : Ctl) (onBroadcast : State → State) (onAddressed : Fin 8 → State → State)
    (s : State) : State :=
  if c.dest = 255 then onBroadcast (s.forward (controlPacket code c)).arrive
  else if c.dest ≠ 0 ∧ c.dest = s.address then s.arrive.addressed code c onAddressed
  else (s.forward (controlPacket code c)).arrive

/-- A CONTROL packet of a known kind, executed by `body` (R136, R151 to R156). -/
def State.request (kind : ReqKind) (body : Body) (c : Ctl) (s : State) : State :=
  s.control (reqCode kind) c (fun s => s.broadcast kind body c) (fun rq s => s.tested kind body c rq)

/-- The command of a request kind: time passes, and the packet is taken. -/
def request (kind : ReqKind) (body : Body) (dt : Nat) (c : Ctl) (s : State) : Host.Outcome State Fault Refusal :=
  s.receive dt fun s => s.request kind body c

/-- A CONTROL packet not for this controller, or a broadcast of a kind that is not executed (R137, R155): forwarded,
and seen by the Frame Tracker. That the packet is such a one is what the command says, and its destination is not
tested again: a DESIGN CHOICE (log 46). -/
def execControlNotAddressed (dt : Nat) (kind : Byte) (c : Ctl) (s : State) : Host.Outcome State Fault Refusal :=
  s.receive dt fun s => (s.forward (controlPacket kind c)).arrive

/-- An addressed request of an unknown kind (R153 step 1). -/
def execUnknownRequest (dt : Nat) (kind : Byte) (c : Ctl) (s : State) : Host.Outcome State Fault Refusal :=
  s.receive dt fun s => s.control kind c id fun rq s => s.respond kind c rq .unknownRequest []

/-! ## Bodies that need a session -/

/-- A body of a kind that needs a session. Any other caller has been refused before (R153 step 5). -/
def forSession (k : Call) (s : State) (f : Fin 4 → Byte → State × Reply) : State × Reply :=
  match k.caller with
  | .session i key => f i key
  | .sessionless | .broadcast => refuse .noSession s

/-- A body for the owner of the edit buffer (R20). -/
def forEditor (k : Call) (s : State) (f : EditBuffer → State × Reply) : State × Reply :=
  forSession k s fun _ key =>
    match s.ms.edit with
    | some e => if e.owner = key then f e else refuse .notOwner s
    | none => refuse .notOwner s

/-- A body for the session that owns the staging area (R72, R73). -/
def forStager (k : Call) (s : State) (f : Fin 4 → Byte → Fin 8 → Curves → State × Reply) : State × Reply :=
  forSession k s fun i key =>
    match s.cu.staging with
    | .owned owner t curves => if owner = key then f i key t curves else refuse .notOwner s
    | .free | .held .. => refuse .notOwner s

/-! ## Releases -/

/-- The edit buffer freed and its target returned to its prior status (R27). -/
def MapStore.releaseEdit (m : MapStore) : MapStore :=
  match m.edit with
  | some e =>
    { m with edit := none,
             contexts := upd m.contexts e.target { m.contexts[e.target] with status := e.prior.status } }
  | none => m

/-- The staging area freed, where a session owns it (R74). -/
def CorrectionUnit.releaseStaging (c : CorrectionUnit) : CorrectionUnit :=
  match c.staging with
  | .owned .. => { c with staging := .free }
  | .held .. | .free => c

/-- The session with this key owns the edit buffer. -/
def MapStore.ownsEdit (m : MapStore) (key : Byte) : Bool :=
  match m.edit with
  | some e => e.owner == key
  | none => false

/-- The session with this key owns the staging area. -/
def CorrectionUnit.ownsStaging (c : CorrectionUnit) (key : Byte) : Bool :=
  match c.staging with
  | .owned owner .. => owner == key
  | .held .. | .free => false

/-- The EDIT-ABANDONED detail of the edit buffer's release (R27). -/
def MapStore.editAbandoned (m : MapStore) (soft : Bool) : Option Detail :=
  m.edit.map fun e => .bufferAbandoned soft e.target e.prior e.owner

/-- The EDIT-ABANDONED detail of the staging area's release (R74). -/
def CorrectionUnit.stagingAbandoned (c : CorrectionUnit) (soft : Bool) : Option Detail :=
  match c.staging with
  | .owned key t _ => some (.stagingAbandoned soft t key)
  | .held .. | .free => none

/-- What the session with this key owns is released without a notice (R161). -/
def State.releaseOwned (key : Byte) (s : State) : State :=
  { s with ms := if s.ms.ownsEdit key then s.ms.releaseEdit else s.ms,
           cu := if s.cu.ownsStaging key then s.cu.releaseStaging else s.cu }

/-- A session slot freed (R157). -/
def State.freeSlot (i : Fin 4) (s : State) : State := { s with sessions := upd s.sessions i none }

/-! ## The session family -/

/-- The session that OPEN-SESSION opens (R158). -/
def newSession (now : Nat) (key seq : Byte) (lease : Nat) (res : List Byte) : Session :=
  { key := key, lease := lease, last := seq, cursor := none,
    state := .ready (now + leaseLength lease) ⟨reqCode .openSession, seq, .ok, res⟩ }

/-- OPEN-SESSION by the conditions of R158. -/
def State.openSession (c : Ctl) (rq : Fin 8) (s : State) : State :=
  let plain (st : Status) : State := s.respond (reqCode .openSession) c rq st []
  match openSessionOperands c.ops with
  | none => plain .badOperand
  | some (key, lease) =>
    match s.findSession key with
    | some (i, d) =>
      match d.state with
      | .ready _ cache =>
        if d.last = c.seq ∧ cache.kind = reqCode .openSession then s.resend (reqCode .openSession) c rq i cache
        else plain .inUse
      | .waiting .. => plain .inUse
    | none =>
      match s.freeSession with
      | none => plain .noSession
      | some i =>
        let res := [key, byteOf lease, byteOf i.1]
        { s.respond (reqCode .openSession) c rq .ok res with
            sessions := upd s.sessions i (some (newSession s.now key c.seq lease res)) }

/-- OPEN-SESSION (R158): taken like any addressed request, but answered STARTING before its own rule (R153). -/
def execOpenSession (dt : Nat) (c : Ctl) (s : State) : Host.Outcome State Fault Refusal :=
  s.receive dt fun s => s.control (reqCode .openSession) c id fun rq s =>
    if s.phase = .starting then s.respond (reqCode .openSession) c rq .starting [] else s.openSession c rq

/-- CLOSE-SESSION at the Management Engine (R161). -/
def closeSessionBody : Body := fun k s =>
  forSession k s fun i key =>
    match noOperands k.ops with
    | none => refuse .badOperand s
    | some () => ((s.releaseOwned key).freeSlot i, .uncached .ok [])

/-- CLOSE-SESSION (R161). -/
def execCloseSession (dt : Nat) (c : Ctl) (s : State) : Host.Outcome State Fault Refusal :=
  request .closeSession closeSessionBody dt c s

/-- The lease code of a slot, 0 for a FREE one. -/
def State.leaseCode (i : Fin 4) (s : State) : Nat := (s.sessions[i].map Session.lease).getD 0

/-- KEEP at the Management Engine (R162): the lease code and the full lease in milliseconds. -/
def keepBody : Body := fun k s =>
  forSession k s fun i _ =>
    match noOperands k.ops with
    | none => refuse .badOperand s
    | some () => (s, .answer .ok (byteOf (s.leaseCode i) :: bytes3 (leaseLength (s.leaseCode i) / 1000)))

/-- KEEP (R162). -/
def execKeep (dt : Nat) (c : Ctl) (s : State) : Host.Outcome State Fault Refusal :=
  request .keep keepBody dt c s

/-! ## The cursor (R169 to R171) -/

/-- A cursor target as a result byte (R204). -/
def cursorTargetByte : CursorTarget → Byte
  | .table t => byteOf t.1
  | .staging => 8

/-- A position as two bytes: the curve in bits 15 and 14, 3 standing for END, and the index in bits 9 to 0 (R204,
log 21). -/
def positionBytes (pos : Nat) : List Byte := bytes2 (pos / 1024 * 16384 + pos % 1024)

/-- The calling session's cursor. -/
def State.cursor (i : Fin 4) (s : State) : Option Cursor := s.sessions[i].bind Session.cursor

/-- The calling session's cursor set. -/
def State.setCursor (i : Fin 4) (c : Option Cursor) (s : State) : State := s.modSession i fun d => { d with cursor := c }

/-- The cursor dropped if its target is STAGING (R172). -/
def State.dropStagingCursor (i : Fin 4) (s : State) : State :=
  match s.cursor i with
  | some ⟨.staging, _⟩ => s.setCursor i none
  | some ⟨.table _, _⟩ | none => s

/-- CURSOR-SET at the Management Engine (R169). -/
def cursorSetBody : Body := fun k s =>
  forSession k s fun i key =>
    match cursorSetOperands k.ops with
    | none => refuse .badOperand s
    | some (t, pos) =>
      if t = .staging ∧ !s.cu.ownsStaging key then refuse .notOwner s
      else (s.setCursor i (some ⟨t, pos⟩), .answer .ok (cursorTargetByte t :: positionBytes pos))

/-- CURSOR-SET (R169). -/
def execCursorSet (dt : Nat) (c : Ctl) (s : State) : Host.Outcome State Fault Refusal :=
  request .cursorSet cursorSetBody dt c s

/-- The staging curves changed. -/
def CorrectionUnit.stage (c : CorrectionUnit) (f : Curves → Curves) : CorrectionUnit :=
  match c.staging with
  | .owned key t curves => { c with staging := .owned key t (f curves) }
  | .held .. | .free => c

/-- CURSOR-WRITE at the Management Engine (R170). -/
def cursorWriteBody : Body := fun k s =>
  forSession k s fun i key =>
    match cursorWriteOperands k.ops with
    | none => refuse .badOperand s
    | some vs =>
      match s.cursor i with
      | none => refuse .noCursor s
      | some ⟨.table _, _⟩ => refuse .notOwner s
      | some ⟨.staging, pos⟩ =>
        if Config.tableEntries < pos + vs.length then refuse .badOperand s
        else if s.cu.ownsStaging key then
          ({ s with cu := s.cu.stage (curveWrite pos vs) }.setCursor i (some ⟨.staging, pos + vs.length⟩),
           .answer .ok (positionBytes (pos + vs.length)))
        else refuse .notOwner s

/-- CURSOR-WRITE (R170). -/
def execCursorWrite (dt : Nat) (c : Ctl) (s : State) : Host.Outcome State Fault Refusal :=
  request .cursorWrite cursorWriteBody dt c s

/-- The curves of the staging area: the identity content while it is free (R70). -/
def Staging.curves : Staging → Curves
  | .free => []
  | .owned _ _ curves | .held _ curves => curves

/-- The curves a cursor reads. -/
def CorrectionUnit.read (c : CorrectionUnit) : CursorTarget → Curves
  | .staging => c.staging.curves
  | .table t => c.tables[t]

/-- CURSOR-READ at the Management Engine (R171): the values as a list, then the position. -/
def cursorReadBody : Body := fun k s =>
  forSession k s fun i _ =>
    match cursorReadOperands k.ops with
    | none => refuse .badOperand s
    | some n =>
      match s.cursor i with
      | none => refuse .noCursor s
      | some ⟨t, pos⟩ =>
        if Config.tableEntries < pos + n then refuse .badOperand s
        else
          (s.setCursor i (some ⟨t, pos + n⟩),
           .answer .ok (byteOf n :: ((cellReadList identityEntry (s.cu.read t) pos n).flatMap bytes2 ++
             positionBytes (pos + n))))

/-- CURSOR-READ (R171). -/
def execCursorRead (dt : Nat) (c : Ctl) (s : State) : Host.Outcome State Fault Refusal :=
  request .cursorRead cursorReadBody dt c s

/-! ## Lease expiry -/

/-- What the session with this key owns is released with EDIT-ABANDONED for each (R164 steps 1 and 2). -/
def State.abandonOwned (key : Byte) (s : State) : State :=
  ({ s with ms := if s.ms.ownsEdit key then s.ms.releaseEdit else s.ms,
            cu := if s.cu.ownsStaging key then s.cu.releaseStaging else s.cu }.raiseIf
      (if s.ms.ownsEdit key then s.ms.editAbandoned false else none)).raiseIf
    (if s.cu.ownsStaging key then s.cu.stagingAbandoned false else none)

/-- A lease expires (R164). Only a READY slot has a lease running (log 3). -/
def execLeaseExpiry (dt : Nat) (i : Fin 4) (s : State) : Host.Outcome State Fault Refusal :=
  s.take dt fun s =>
    match s.sessions[i] with
    | some d =>
      match d.state with
      | .ready leaseEnd _ =>
        (((s.reach leaseEnd).abandonOwned d.key).freeSlot i).raise (.sessionExpired d.key i d.last)
      | .waiting .. => s
    | none => s

end Sys2Proof.Machine
end

