-- ==== Sys2Proof/Machine/Edits.lean ====
section
/-!
DEFINITION. The edit requests of chapter 2 (R20 to R27) and READ-TILE (R16).
-/

namespace Sys2Proof.Machine

/-! ## READ-TILE -/

/-- The ten fields of a tile entry (R1, R204). -/
def tileBytes (t : Tile) : List Byte :=
  [byteOf t.port.1, byteOf t.pos.1] ++ bytes2 t.x ++ bytes2 t.y ++ bytes2 t.w ++ bytes2 t.h ++
    [yesNo t.mirrorH, yesNo t.mirrorV, byteOf t.table.1, byteOf t.bright]

/-- A slot: unused or the ten fields, an optional result (R16, R204). -/
def slotBytes : Option Tile → List Byte
  | none => [0]
  | some t => 1 :: tileBytes t

/-- A fill colour, two bytes a value. -/
def fillBytes (f : Rgb) : List Byte := bytes2 f.c0 ++ bytes2 f.c1 ++ bytes2 f.c2

/-- The last validation result: none 0, OK 1, failed 2 with reason and slot (log 18). -/
def validationBytes : Option Validation → List Byte
  | none => [0]
  | some .ok => [1]
  | some (.failed r s) => [2, reasonCode r, byteOf s]

/-- The used count of a tile table (R3). -/
def usedCount (t : TileTable) : Nat := (used t).length

/-- The results that a table gives for one slot: used count, fill colour, the slot (R16). -/
def tableSlotBytes (t : TileTable) (f : Rgb) (n : Fin 32) : List Byte :=
  byteOf (usedCount t) :: (fillBytes f ++ slotBytes t[n])

/-- READ-TILE at the Map Store (R16). R18 has source EDIT report the buffer's owner key too, which R16's results do not
list: it is sent first, as R18 names it, a DESIGN CHOICE (log 26). -/
def readTileBody : Body := fun k s =>
  match readTileOperands k.ops with
  | none => refuse .badOperand s
  | some (.context c, n) =>
    let x := s.ms.contexts[c]
    (s, .answer .ok (ctxStatusCode x.status :: tableSlotBytes x.table x.fill n))
  | some (.edit, n) =>
    match s.ms.edit with
    | none => refuse .notFound s
    | some e =>
      (s, .answer .ok ([e.owner, byteOf e.target.1, priorCode e.prior] ++ validationBytes e.result ++
        tableSlotBytes e.table e.fill n))

/-- READ-TILE (R16). -/
def execReadTile (dt : Nat) (c : Ctl) (s : State) : Host.Outcome State Fault Refusal :=
  request .readTile readTileBody dt c s

/-! ## OPEN-EDIT -/

/-- A target names a context (R21). -/
def Target.names : Target → Fin 4 → Bool
  | .context d, c => d == c
  | .sequence es, c => es.any fun e => e.ctx == c

/-- The active selection names a context (R21). -/
def Selection.names : Selection → Fin 4 → Bool
  | .none, _ => false
  | .context d, c => d == c
  | .sequence es _ _, c => es.any fun e => e.ctx == c

/-- A context is shown or waiting to be shown (R21 condition 4). -/
def MapStore.inUse (m : MapStore) (c : Fin 4) : Bool :=
  m.selection.names c || (match m.switch with | some w => w.target.names c | none => false)

/-- The prior status that OPEN-EDIT records; an OPEN context has been refused before. -/
def CtxStatus.asPrior : CtxStatus → PriorStatus
  | .ready => .ready
  | .blank | .opened => .blank

/-- The edit buffer as OPEN-EDIT takes it (R21). -/
def openedBuffer (key : Byte) (c : Fin 4) (copy : Bool) (x : Context) : EditBuffer :=
  { owner := key, target := c, prior := x.status.asPrior, table := if copy then x.table else emptyTable,
    fill := if copy then x.fill else Rgb.black, result := none }

/-- The buffer taken for a context, which becomes OPEN (R21). -/
def MapStore.openEdit (key : Byte) (c : Fin 4) (copy : Bool) (m : MapStore) : MapStore :=
  { m with edit := some (openedBuffer key c copy m.contexts[c]),
           contexts := upd m.contexts c { m.contexts[c] with status := .opened } }

/-- OPEN-EDIT at the Map Store (R21). -/
def openEditBody : Body := fun k s =>
  forSession k s fun _ key =>
    match openEditOperands k.ops with
    | none => refuse .badOperand s
    | some (c, copy) =>
      if s.ms.contexts[c].status = .opened then refuse .notReady s
      else if s.ms.edit.isSome then refuse .locked s
      else if s.ms.inUse c then refuse .inUse s
      else done { s with ms := s.ms.openEdit key c copy }

/-- OPEN-EDIT (R21). -/
def execOpenEdit (dt : Nat) (c : Ctl) (s : State) : Host.Outcome State Fault Refusal :=
  request .openEdit openEditBody dt c s

/-! ## Changing the buffer -/

/-- The buffer replaced. -/
def State.putEdit (e : EditBuffer) (s : State) : State := { s with ms := { s.ms with edit := some e } }

/-- A slot of the buffer set; the last validation result becomes none (R19, R22, R23). -/
def EditBuffer.setSlot (n : Fin 32) (t : Option Tile) (e : EditBuffer) : EditBuffer :=
  { e with table := upd e.table n t, result := none }

/-- SET-TILE at the Map Store (R22). -/
def setTileBody : Body := fun k s =>
  forEditor k s fun e =>
    match setTileOperands k.ops with
    | none => refuse .badOperand s
    | some (n, t) => done (s.putEdit (e.setSlot n (some t)))

/-- SET-TILE (R22). -/
def execSetTile (dt : Nat) (c : Ctl) (s : State) : Host.Outcome State Fault Refusal :=
  request .setTile setTileBody dt c s

/-- CLEAR-TILE at the Map Store (R23). -/
def clearTileBody : Body := fun k s =>
  forEditor k s fun e =>
    match finOperand 32 k.ops with
    | none => refuse .badOperand s
    | some n => done (s.putEdit (e.setSlot n none))

/-- CLEAR-TILE (R23). -/
def execClearTile (dt : Nat) (c : Ctl) (s : State) : Host.Outcome State Fault Refusal :=
  request .clearTile clearTileBody dt c s

/-- SET-FILL at the Map Store (R24). -/
def setFillBody : Body := fun k s =>
  forEditor k s fun e =>
    match setFillOperands k.ops with
    | none => refuse .badOperand s
    | some f => done (s.putEdit { e with fill := f, result := none })

/-- SET-FILL (R24). -/
def execSetFill (dt : Nat) (c : Ctl) (s : State) : Host.Outcome State Fault Refusal :=
  request .setFill setFillBody dt c s

/-! ## Checking, closing and abandoning -/

/-- The results of VALIDATE-FAIL: reason and slot (R25). -/
def failureBytes (r : Reason) (slot : Nat) : List Byte := [reasonCode r, byteOf slot]

/-- CHECK-EDIT at the Map Store (R25). -/
def checkEditBody : Body := fun k s =>
  forEditor k s fun e =>
    match noOperands k.ops with
    | none => refuse .badOperand s
    | some () =>
      let s := s.putEdit { e with result := some (validate e.table) }
      match validate e.table with
      | .ok => done s
      | .failed r n => (s, .answer .validateFail (failureBytes r n))

/-- CHECK-EDIT (R25). -/
def execCheckEdit (dt : Nat) (c : Ctl) (s : State) : Host.Outcome State Fault Refusal :=
  request .checkEdit checkEditBody dt c s

/-- A SAVE-CONTEXT of a context is in flight (R26, R114). -/
def RecordStore.savingContext (r : RecordStore) (c : Fin 4) : Bool :=
  match r.op with
  | some op => op.kind == .saveContext && op.recKey == some (.context c)
  | none => false

/-- The buffer becomes the content of its target, which becomes READY, and the buffer becomes free (R26 step 3). -/
def MapStore.closeEdit (e : EditBuffer) (m : MapStore) : MapStore :=
  { m with edit := none, contexts := upd m.contexts e.target ⟨.ready, e.table, e.fill⟩ }

/-- CLOSE-EDIT at the Map Store (R26). -/
def closeEditBody : Body := fun k s =>
  forEditor k s fun e =>
    match noOperands k.ops with
    | none => refuse .badOperand s
    | some () =>
      match validate e.table with
      | .failed r n =>
        (s.putEdit { e with result := some (.failed r n) }, .answer .validateFail (failureBytes r n))
      | .ok =>
        if s.rs.savingContext e.target then refuse .busy s
        else done { s with ms := s.ms.closeEdit e }

/-- CLOSE-EDIT (R26). -/
def execCloseEdit (dt : Nat) (c : Ctl) (s : State) : Host.Outcome State Fault Refusal :=
  request .closeEdit closeEditBody dt c s

/-- ABANDON-EDIT at the Map Store (R27). -/
def abandonEditBody : Body := fun k s =>
  forEditor k s fun _ =>
    match noOperands k.ops with
    | none => refuse .badOperand s
    | some () => done { s with ms := s.ms.releaseEdit }

/-- ABANDON-EDIT (R27). -/
def execAbandonEdit (dt : Nat) (c : Ctl) (s : State) : Host.Outcome State Fault Refusal :=
  request .abandonEdit abandonEditBody dt c s

end Sys2Proof.Machine
end

