-- ==== Sys2Proof/Machine/Selecting.lean ====
section
/-!
DEFINITION. The selection requests of chapter 2 (R29 to R33), which place, replace and remove the switch part and set
and clear the HOLD flag.
-/

namespace Sys2Proof.Machine

/-- The issuer of a switch part that a request places (R29). -/
def Call.issuer (k : Call) : Issuer :=
  match k.caller with
  | .session _ key => .session key
  | .sessionless => .sessionless
  | .broadcast => .broadcast

def Target.isSequence : Target → Bool
  | .sequence _ => true
  | .context _ => false

/-- The SWITCH-SUPERSEDED detail of placing a part, if one is replaced (R31). -/
def SwitchPart.supersedes (new : SwitchPart) (old : Option SwitchPart) : Option Detail :=
  old.map fun o => .switchSuperseded o.issuer new.issuer o.target.isSequence

/-- A switch part placed (R31). -/
def State.placeSwitch (w : SwitchPart) (s : State) : State :=
  { s with ms := { s.ms with switch := some w } }.raiseIf (w.supersedes s.ms.switch)

/-- A context is READY. -/
def MapStore.isReady (m : MapStore) (c : Fin 4) : Bool := m.contexts[c].status == .ready

/-- SELECT-CONTEXT at the Map Store (R29). -/
def selectContextBody : Body := fun k s =>
  match selectContextOperands k.ops with
  | none => refuse .badOperand s
  | some (c, n) =>
    if s.ms.isReady c then done (s.placeSwitch ⟨.context c, n, k.issuer⟩) else refuse .notReady s

/-- SELECT-CONTEXT (R29). -/
def execSelectContext (dt : Nat) (c : Ctl) (s : State) : Host.Outcome State Fault Refusal :=
  request .selectContext selectContextBody dt c s

/-- The first context of a list that is not READY (R30, R133). -/
def MapStore.firstNotReady (m : MapStore) (es : List SeqEntry) : Option (Fin 4) :=
  (es.find? fun e => !m.isReady e.ctx).map SeqEntry.ctx

/-- SELECT-SEQUENCE at the Map Store (R30). -/
def selectSequenceBody : Body := fun k s =>
  match selectSequenceOperands k.ops with
  | none => refuse .badOperand s
  | some (es, n) =>
    match s.ms.firstNotReady es with
    | some c => (s, .answer .notReady [byteOf c.1])
    | none => done (s.placeSwitch ⟨.sequence es, n, k.issuer⟩)

/-- SELECT-SEQUENCE (R30). -/
def execSelectSequence (dt : Nat) (c : Ctl) (s : State) : Host.Outcome State Fault Refusal :=
  request .selectSequence selectSequenceBody dt c s

/-- CANCEL-SELECT at the Map Store (R32). -/
def cancelSelectBody : Body := fun k s =>
  match noOperands k.ops with
  | none => refuse .badOperand s
  | some () =>
    if s.ms.switch.isSome then done { s with ms := { s.ms with switch := none } } else refuse .notFound s

/-- CANCEL-SELECT (R32). -/
def execCancelSelect (dt : Nat) (c : Ctl) (s : State) : Host.Outcome State Fault Refusal :=
  request .cancelSelect cancelSelectBody dt c s

/-- HOLD at the Map Store (R33). -/
def holdBody : Body := fun k s =>
  match noOperands k.ops with
  | none => refuse .badOperand s
  | some () => done { s with ms := { s.ms with hold := true } }

/-- HOLD (R33). -/
def execHold (dt : Nat) (c : Ctl) (s : State) : Host.Outcome State Fault Refusal :=
  request .hold holdBody dt c s

/-- RELEASE at the Map Store (R33). -/
def releaseBody : Body := fun k s =>
  match noOperands k.ops with
  | none => refuse .badOperand s
  | some () => done { s with ms := { s.ms with hold := false } }

/-- RELEASE (R33). -/
def execRelease (dt : Nat) (c : Ctl) (s : State) : Host.Outcome State Fault Refusal :=
  request .release releaseBody dt c s

end Sys2Proof.Machine
end

