-- ==== Sys2Proof/Machine/TableRequests.lean ====
section
/-!
DEFINITION. The staging requests of chapter 4 (R71 to R73).
-/

namespace Sys2Proof.Machine

/-- A SAVE-TABLE of a table is in flight (R71, R115). -/
def RecordStore.savingTable (r : RecordStore) (t : Fin 8) : Bool :=
  match r.op with
  | some op => op.kind == .saveTable && op.recKey == some (.table t)
  | none => false

/-- The staging area is free (R70). -/
def Staging.isFree : Staging → Bool
  | .free => true
  | .owned .. | .held .. => false

/-- BEGIN-TABLE at the Correction Unit (R71). -/
def beginTableBody : Body := fun k s =>
  forSession k s fun _ key =>
    match beginTableOperands k.ops with
    | none => refuse .badOperand s
    | some (t, copy) =>
      if !s.cu.staging.isFree then refuse .locked s
      else if s.rs.savingTable t then refuse .busy s
      else done { s with cu := { s.cu with staging := .owned key t (if copy then s.cu.tables[t] else []) } }

/-- BEGIN-TABLE (R71). -/
def execBeginTable (dt : Nat) (c : Ctl) (s : State) : Host.Outcome State Fault Refusal :=
  request .beginTable beginTableBody dt c s

/-- END-TABLE at the Correction Unit (R72): ownership is tested before the operands (log 27). -/
def endTableBody : Body := fun k s =>
  forStager k s fun i _ t curves =>
    match noOperands k.ops with
    | none => refuse .badOperand s
    | some () =>
      done ({ s with ms := { s.ms with install := some t },
                     cu := { s.cu with staging := .held t curves } }.dropStagingCursor i)

/-- END-TABLE (R72). -/
def execEndTable (dt : Nat) (c : Ctl) (s : State) : Host.Outcome State Fault Refusal :=
  request .endTable endTableBody dt c s

/-- ABANDON-TABLE at the Correction Unit (R73). -/
def abandonTableBody : Body := fun k s =>
  forStager k s fun i _ _ _ =>
    match noOperands k.ops with
    | none => refuse .badOperand s
    | some () => done ({ s with cu := { s.cu with staging := .free } }.dropStagingCursor i)

/-- ABANDON-TABLE (R73). -/
def execAbandonTable (dt : Nat) (c : Ctl) (s : State) : Host.Outcome State Fault Refusal :=
  request .abandonTable abandonTableBody dt c s

end Sys2Proof.Machine
end

