-- ==== Sys2Proof/Machine/PortRequests.lean ====
section
/-!
DEFINITION. The port requests of chapter 5: SET-PORT (R87, R93), FORCE-PATTERN (R88, R101), SET-CADENCE (R97) and
READ-PORT (R96), and SET-NOTICE-CLASS of chapter 9 (R182).
-/

namespace Sys2Proof.Machine

/-- SET-PORT at a tile port (R87). -/
def setPortBody : Body := fun k s =>
  forSession k s fun _ _ =>
    match setPortOperands k.ops with
    | none => refuse .badOperand s
    | some (p, enabled, loss, pattern) => done (s.atPort p (Port.configure enabled loss pattern))

/-- SET-PORT (R87). -/
def execSetPort (dt : Nat) (c : Ctl) (s : State) : Host.Outcome State Fault Refusal :=
  request .setPort setPortBody dt c s

/-- The forced pattern of the ports that FORCE-PATTERN names (R88). -/
def State.forcePattern (port : Option (Fin 8)) (kind : Option Pattern) (s : State) : State :=
  match port with
  | some p => s.atPort p (Port.force s.ft.frame.isSome kind)
  | none => s.atPorts (Port.force s.ft.frame.isSome kind)

/-- FORCE-PATTERN at the tile ports (R88). -/
def forcePatternBody : Body := fun k s =>
  match forcePatternOperands k.ops with
  | none => refuse .badOperand s
  | some (port, kind) => done (s.forcePattern port kind)

/-- FORCE-PATTERN (R88). -/
def execForcePattern (dt : Nat) (c : Ctl) (s : State) : Host.Outcome State Fault Refusal :=
  request .forcePattern forcePatternBody dt c s

/-- SET-CADENCE at the tile ports (R97): the interval already running is not changed. -/
def setCadenceBody : Body := fun k s =>
  match finOperand 16 k.ops with
  | none => refuse .badOperand s
  | some code => done { s with cadence := code.1 }

/-- SET-CADENCE (R97). -/
def execSetCadence (dt : Nat) (c : Ctl) (s : State) : Host.Outcome State Fault Refusal :=
  request .setCadence setCadenceBody dt c s

/-- A tally record as an optional result (R96, R204). -/
def tallyBytes : Option Tally → List Byte
  | none => [0]
  | some t => 1 :: (wordBytes t.frame ++ bytes2 t.queued ++ bytes2 t.delivered ++ bytes2 t.dropped)

/-- The results of READ-PORT in the order of R96; the stall flag is 1 set and 0 clear (log 48). -/
def State.portReport (s : State) (p : Port) : List Byte :=
  [yesNo p.config.enabled, byteOf (lossCode p.config.loss), byteOf (patternCode p.config.pattern),
   byteOf (forcedCode p.config.forced), portStateCode (portState s p), yesNo p.stalled, yesNo p.releasePending,
   byteOf p.queue.length, yesNo p.transferring] ++
    tallyBytes p.current ++ tallyBytes p.last ++ wordBytes p.genCount ++
    byteOf s.cadence :: bytes3 s.cadencePeriod

/-- READ-PORT at a tile port (R96). -/
def readPortBody : Body := fun k s =>
  match finOperand 8 k.ops with
  | none => refuse .badOperand s
  | some p => (s, .answer .ok (s.portReport s.ports[p]))

/-- READ-PORT (R96). -/
def execReadPort (dt : Nat) (c : Ctl) (s : State) : Host.Outcome State Fault Refusal :=
  request .readPort readPortBody dt c s

/-- SET-NOTICE-CLASS at the notice slots (R182): the kind's former class is the result. -/
def setNoticeClassBody : Body := fun k s =>
  forSession k s fun _ _ =>
    match noticeClassOperands k.ops with
    | none => refuse .badOperand s
    | some (kind, cls) =>
      ({ s with ns := s.ns.setClass kind cls }, .answer .ok [byteOf s.ns.slots[kind.idx].cls.1])

/-- SET-NOTICE-CLASS (R182). -/
def execSetNoticeClass (dt : Nat) (c : Ctl) (s : State) : Host.Outcome State Fault Refusal :=
  request .setNoticeClass setNoticeClassBody dt c s

end Sys2Proof.Machine
end

