-- ==== Sys2Proof/Machine/Status.lean ====
section
/-!
DEFINITION. READ-STATUS (R173, R174) with its five parts (R43, R67, R150) and READ-STORE-STATUS (R134). The layouts
that R204 fixes are followed; what it leaves is chosen in logs 17 to 23.
-/

namespace Sys2Proof.Machine

/-! ## DEVICE and SESSIONS (R174) -/

/-- The staging area's owner and target: free 0, a session key 1, held by install part 2 (log 20). -/
def stagingBytes : Staging → List Byte
  | .free => [0, 0]
  | .owned key t _ => [1, key, 1, byteOf t.1]
  | .held t _ => [2, 1, byteOf t.1]

/-- Part DEVICE (R174). -/
def State.deviceReport (s : State) : List Byte :=
  [(match s.phase with | .starting => 0 | .running => 1), s.address,
   byteOf s.rq.freeCount, byteOf s.rq.reservedCount, byteOf s.rq.filledCount] ++
    stagingBytes s.cu.staging ++ [s.rs.stateCode, byteOf s.ns.pendingCount]

/-- The three bytes of a cursor: its target, or FF without one, and its position (R204). -/
def cursorBytes : Option Cursor → List Byte
  | none => [255, 0, 0]
  | some c => cursorTargetByte c.target :: positionBytes c.pos

/-- The entry of one session slot (R204): its state byte alone while FREE, else twelve bytes. -/
def sessionBytes (now : Nat) : Option Session → List Byte
  | none => [0]
  | some d =>
    match d.state with
    | .ready leaseEnd _ =>
      [129, d.key, byteOf d.lease] ++ bytes3 ((leaseEnd - now) / 1000) ++ [d.last, 0, 0] ++ cursorBytes d.cursor
    | .waiting held kind seq _ =>
      [2, d.key, byteOf d.lease] ++ bytes3 (held / 1000) ++ [d.last, reqCode kind, seq] ++ cursorBytes d.cursor

/-- Part SESSIONS (R174, R204). -/
def State.sessionsReport (s : State) : List Byte := s.sessions.toList.flatMap (sessionBytes s.now)

/-! ## MAP (R43) -/

/-- Entries of a sequence as a list (R204). -/
def seqBytes (es : List SeqEntry) : List Byte :=
  byteOf es.length :: es.flatMap fun e => [byteOf e.ctx.1, byteOf e.count]

/-- The active selection: its kind, then its context, or its list with index and remaining count. -/
def selectionBytes : Selection → List Byte
  | .none => [0]
  | .context c => [1, byteOf c.1]
  | .sequence es i r => 2 :: (seqBytes es ++ [byteOf i, byteOf r])

/-- A target: CONTEXT 0 or SEQUENCE 1. -/
def targetBytes : Target → List Byte
  | .context c => [0, byteOf c.1]
  | .sequence es => 1 :: seqBytes es

/-- An optional number of two bytes. -/
def optWord : Option Word → List Byte
  | none => [0]
  | some w => 1 :: wordBytes w

/-- The switch part as an optional result; the issuer is its key and whether it is a broadcast (log 17). -/
def switchBytes : Option SwitchPart → List Byte
  | none => [0]
  | some w => 1 :: (targetBytes w.target ++ optWord w.notBefore ++ [issuerKey w.issuer, yesNo w.issuer.isBroadcast])

/-- The edit buffer's owner and target as an optional result. -/
def editBytes : Option EditBuffer → List Byte
  | none => [0]
  | some e => [1, e.owner, byteOf e.target.1]

/-- Part MAP (R43); the HOLD flag is 1 set and 0 clear (log 48). -/
def State.mapReport (s : State) : List Byte :=
  selectionBytes s.ms.selection ++ switchBytes s.ms.switch ++
    (match s.ms.install with | none => [0] | some t => [1, byteOf t.1]) ++ [yesNo s.ms.hold] ++
    editBytes s.ms.edit ++ s.ms.contexts.toList.map fun c => ctxStatusCode c.status

/-! ## FRAME (R67) -/

/-- The frame state, and in IN-FRAME what R67 lists of the frame (log 22). -/
def Tracker.frameBytes (t : Tracker) : List Byte :=
  match t.frame with
  | none => [0]
  | some f =>
    1 :: (wordBytes f.number ++ bytes2 f.width ++ bytes2 f.height ++ bytes2 t.runs ++ [byteOf (damageBits t.damage)])

/-- An optional period, three bytes. -/
def optPeriod : Option Nat → List Byte
  | none => [0]
  | some p => 1 :: bytes3 p

/-- Part FRAME (R67). -/
def Tracker.report (t : Tracker) : List Byte :=
  t.frameBytes ++ [lockCode t.lock, byteOf t.regular] ++ optPeriod t.reference ++ optPeriod t.measured ++
    wordBytes t.lastNumber ++ wordBytes t.opened ++ wordBytes t.damagedCount

/-! ## LINK (R150) -/

/-- Part LINK (R150). The link state and the turn are sent by their positions in UP, DOWN (R140) and LOCAL, PASS (R146), as
R204 says. A level is sent as 1 for high and 0 for low, a DESIGN CHOICE (log 19). -/
def State.linkReport (s : State) : List Byte :=
  [(if s.dn.up then 0 else 1), byteOf s.dn.buffer.length, yesNo s.holdOut, yesNo s.up.holdIn, yesNo s.up.sending.isSome,
   (match s.up.turn with | .toLocal => 0 | .toPass => 1)]

/-- One part of the state (R173). -/
def State.report (s : State) : StatusPart → List Byte
  | .device => s.deviceReport
  | .sessions => s.sessionsReport
  | .map => s.mapReport
  | .frame => s.ft.report
  | .link => s.linkReport

/-- READ-STATUS at the Management Engine (R173). -/
def readStatusBody : Body := fun k s =>
  match readStatusOperands k.ops with
  | none => refuse .badOperand s
  | some part => (s, .answer .ok (s.report part))

/-- READ-STATUS (R173). -/
def execReadStatus (dt : Nat) (c : Ctl) (s : State) : Host.Outcome State Fault Refusal :=
  request .readStatus readStatusBody dt c s

/-! ## READ-STORE-STATUS (R134) -/

/-- The map of the keys that have a live record, and of those marked bad (R204). -/
def RecordStore.liveMap (r : RecordStore) : Nat := bitsNat (r.directory.toList.map Option.isSome)
def RecordStore.badMap (r : RecordStore) : Nat :=
  bitsNat (r.directory.toList.map fun e => match e with | some e => e.bad | none => false)

/-- The operation in flight: none, or its kind, key and session key (R134). -/
def operationBytes : Option Operation → List Byte
  | none => [0]
  | some op => [1, reqCode op.kind, byteOf (keyIndex op.recKey), op.session]

/-- The results of READ-STORE-STATUS in the order of R134 and the form of R204; the full mark is 1 set and 0 clear
(log 48). -/
def RecordStore.report (r : RecordStore) : List Byte :=
  [r.stateCode, yesNo r.full, bankCode r.active] ++ wordBytes r.generation ++ bytes2 r.append ++ bytes2 r.freeWords ++
    bytes2 r.liveWords ++ bytes2 (r.append - Config.firstRecord - r.liveWords) ++ bytes2 r.liveMap ++
    bytes2 r.badMap ++ r.directory.toList.flatMap (fun e => match e with | some e => bytes2 e.len | none => []) ++
    operationBytes r.op

/-- READ-STORE-STATUS at the Record Store (R134). -/
def readStoreStatusBody : Body := fun k s =>
  match noOperands k.ops with
  | none => refuse .badOperand s
  | some () => (s, .answer .ok s.rs.report)

/-- READ-STORE-STATUS (R134). -/
def execReadStoreStatus (dt : Nat) (c : Ctl) (s : State) : Host.Outcome State Fault Refusal :=
  request .readStoreStatus readStoreStatusBody dt c s

end Sys2Proof.Machine
end

