-- ==== Sys2Proof/Machine/StoreRequests.lean ====
section
/-!
DEFINITION. The long store requests as they are tested and accepted (R113 to R116, R120 to R123, R126, R166). An
accepted request becomes the operation in flight; what it does to the banks is done at its completion (log 8).
-/

namespace Sys2Proof.Machine

/-- Steps 3 and 4 of R113; `full` says whether the request is refused while the full mark is set. -/
def storeTests (full : Bool) (s : State) (own : State × Reply) : State × Reply :=
  if s.rs.op.isSome then refuse .busy s
  else if full ∧ s.rs.full then refuse .storeFull s
  else own

/-- A request accepted as the operation in flight of a session (R113 step 6). -/
def State.accept (kind : ReqKind) (recKey : Option RecKey) (i : Fin 4) (key : Byte) (addr : Nat) (body : List Word)
    (s : State) : State × Reply :=
  ({ s with rs := { s.rs with op := some { kind := kind, recKey := recKey, session := key, slot := i, attached := true,
                                            addr := addr, body := body } } }, .accepted)

/-- The append point advanced by a save that begins (R112, R117). -/
def State.advanceAppend (n : Nat) (s : State) : State := { s with rs := { s.rs with append := s.rs.append + n } }

/-- A save: refused STORE-FULL when the free words are too few, else accepted (R117). -/
def State.acceptSave (kind : ReqKind) (recKey : RecKey) (i : Fin 4) (key : Byte) (body : List Word) (s : State) :
    State × Reply :=
  if s.rs.freeWords < 4 + body.length then refuse .storeFull s
  else (s.advanceAppend (4 + body.length)).accept kind (some recKey) i key s.rs.append body

/-- SAVE-CONTEXT at the Record Store (R114). -/
def saveContextBody : Body := fun k s =>
  forSession k s fun i key =>
    match finOperand 4 k.ops with
    | none => refuse .badOperand s
    | some c =>
      storeTests true s <|
        if s.ms.isReady c then s.acceptSave .saveContext (.context c) i key (contextImage s.ms.contexts[c])
        else refuse .notReady s

/-- SAVE-CONTEXT (R114). -/
def execSaveContext (dt : Nat) (c : Ctl) (s : State) : Host.Outcome State Fault Refusal :=
  request .saveContext saveContextBody dt c s

/-- A change to a table waits or is being prepared (R115). -/
def State.tableClaimed (s : State) (t : Fin 8) : Bool :=
  s.ms.install == some t ||
    match s.cu.staging with
    | .owned _ u _ => u == t
    | .free | .held .. => false

/-- SAVE-TABLE at the Record Store (R115). -/
def saveTableBody : Body := fun k s =>
  forSession k s fun i key =>
    match finOperand 8 k.ops with
    | none => refuse .badOperand s
    | some t =>
      storeTests true s <|
        if s.tableClaimed t then refuse .busy s
        else s.acceptSave .saveTable (.table t) i key (tableBody s.cu.tables[t])

/-- SAVE-TABLE (R115). -/
def execSaveTable (dt : Nat) (c : Ctl) (s : State) : Host.Outcome State Fault Refusal :=
  request .saveTable saveTableBody dt c s

/-- SAVE-SETTINGS at the Record Store (R116). -/
def saveSettingsBody : Body := fun k s =>
  forSession k s fun i key =>
    match noOperands k.ops with
    | none => refuse .badOperand s
    | some () => storeTests true s <| s.acceptSave .saveSettings .settings i key (settingsBody s.settings)

/-- SAVE-SETTINGS (R116). -/
def execSaveSettings (dt : Nat) (c : Ctl) (s : State) : Host.Outcome State Fault Refusal :=
  request .saveSettings saveSettingsBody dt c s

/-- A restore of a key: NOT-FOUND without a live record, else accepted with its working copy (R120, R121). -/
def State.acceptRestore (kind : ReqKind) (recKey : RecKey) (i : Fin 4) (key : Byte) (s : State) : State × Reply :=
  match s.rs.entry recKey with
  | none => refuse .notFound s
  | some e => s.accept kind (some recKey) i key e.addr (recordBody (s.rs.bank s.rs.active) e.addr e.len)

/-- RESTORE-CONTEXT at the Record Store (R120). -/
def restoreContextBody : Body := fun k s =>
  forSession k s fun i key =>
    match contextKeyOperand k.ops with
    | none => refuse .badOperand s
    | some c =>
      if s.ms.ownsEdit key then storeTests false s (s.acceptRestore .restoreContext (.context c) i key)
      else refuse .notOwner s

/-- RESTORE-CONTEXT (R120). -/
def execRestoreContext (dt : Nat) (c : Ctl) (s : State) : Host.Outcome State Fault Refusal :=
  request .restoreContext restoreContextBody dt c s

/-- RESTORE-TABLE at the Record Store (R121). -/
def restoreTableBody : Body := fun k s =>
  forSession k s fun i key =>
    match tableKeyOperand k.ops with
    | none => refuse .badOperand s
    | some t =>
      if s.cu.ownsStaging key then storeTests false s (s.acceptRestore .restoreTable (.table t) i key)
      else refuse .notOwner s

/-- RESTORE-TABLE (R121). -/
def execRestoreTable (dt : Nat) (c : Ctl) (s : State) : Host.Outcome State Fault Refusal :=
  request .restoreTable restoreTableBody dt c s

/-- DELETE-RECORD at the Record Store (R122). -/
def deleteRecordBody : Body := fun k s =>
  forSession k s fun i key =>
    match keyOperand k.ops with
    | none => refuse .badOperand s
    | some rk =>
      storeTests true s <|
        match s.rs.entry rk with
        | none => refuse .notFound s
        | some e => s.accept .deleteRecord (some rk) i key e.addr []

/-- DELETE-RECORD (R122). -/
def execDeleteRecord (dt : Nat) (c : Ctl) (s : State) : Host.Outcome State Fault Refusal :=
  request .deleteRecord deleteRecordBody dt c s

/-- COMPACT at the Record Store (R123). -/
def compactBody : Body := fun k s =>
  forSession k s fun i key =>
    match noOperands k.ops with
    | none => refuse .badOperand s
    | some () => storeTests false s (s.accept .compact none i key s.rs.append [])

/-- COMPACT (R123). -/
def execCompact (dt : Nat) (c : Ctl) (s : State) : Host.Outcome State Fault Refusal :=
  request .compact compactBody dt c s

/-- ERASE-STORE at the Record Store (R126). -/
def eraseStoreBody : Body := fun k s =>
  forSession k s fun i key =>
    match noOperands k.ops with
    | none => refuse .badOperand s
    | some () => storeTests false s (s.accept .eraseStore none i key s.rs.append [])

/-- ERASE-STORE (R126). -/
def execEraseStore (dt : Nat) (c : Ctl) (s : State) : Host.Outcome State Fault Refusal :=
  request .eraseStore eraseStoreBody dt c s

end Sys2Proof.Machine
end

