-- ==== Sys2Proof/Machine/Completions.lean ====
section
/-!
DEFINITION. The completions of long store operations (R117, R118, R120 to R124, R126, R128, R167, R168). A completion
of a kind of operation that is not in flight does nothing (log 3).
-/

namespace Sys2Proof.Machine

/-! ## The answer of a long request -/

/-- The response of a completed operation placed, cached, and its session READY with the full lease (R167). -/
def State.answerLong (op : Operation) (st : Status) (res : List Byte) (s : State) : State :=
  match s.sessions[op.slot] with
  | some d =>
    match d.state with
    | .waiting _ kind seq rq =>
      (s.fill rq d.key seq (reqCode kind) st res).modSession op.slot fun d =>
        d.renewed s.now ⟨reqCode kind, seq, st, res⟩
    | .ready .. => s
  | none => s

/-- The operation in flight becomes none, and it is answered unless its session is gone (R113, R128, R168). -/
def State.finish (op : Operation) (st : Status) (res : List Byte) (s : State) : State :=
  let s := { s with rs := { s.rs with op := none } }
  if op.attached then s.answerLong op st res else s

/-- STORE-FAULT of a verify failure (R118, R122, R124, R126). -/
def State.raiseWriteFault (f : VerifyFailure) (key : Option RecKey) (s : State) : State :=
  s.raise (.storeFault .writeFault f.bank f.addr key)

/-- The kinds of save. -/
def isSave (k : ReqKind) : Bool := k == .saveContext || k == .saveTable || k == .saveSettings

/-! ## Save -/

/-- The number of accesses of a save before the superseding one: header, body, VALID (R117 steps 1 to 3). -/
def saveSteps (body : List Word) : Nat := 5 + body.length

/-- The directory names the new record (R117 step 3). -/
def RecordStore.recorded (r : RecordStore) (op : Operation) (k : RecKey) : RecordStore :=
  r.setEntry k (some ⟨op.addr, op.body.length, false⟩)

/-- The results of a save: key, address, length, free words (R117). -/
def saveResults (op : Operation) (k : RecKey) (r : RecordStore) : List Byte :=
  byteOf (keyIndex (some k)) :: (bytes2 op.addr ++ bytes2 op.body.length ++ bytes2 r.freeWords)

/-- STORE-NEARLY-FULL, when the free words are fewer than 4,096 (R117, R132). -/
def RecordStore.nearlyFull (r : RecordStore) (k : Option RecKey) : Option Detail :=
  if r.freeWords < Config.nearlyFull then some (.storeNearlyFull r.freeWords k) else none

/-- A save ends (R117, R118). -/
def State.saveEnds (op : Operation) (k : RecKey) (fault : Option Mishap) (s : State) : State :=
  let p := s.rs.perform fault 0 (s.rs.accesses op)
  match p.2 with
  | none =>
    let rs := p.1.recorded op k
    ({ s with rs := rs }.finish op .ok (saveResults op k rs)).raiseIf (rs.nearlyFull (some k))
  | some f =>
    let rs := if f.step < saveSteps op.body then p.1 else { p.1.recorded op k with full := true }
    ({ s with rs := rs }.finish op .writeFault []).raiseWriteFault f (some k)

/-- The completion of a save (R117, R118). -/
def execSaveCompletion (dt : Nat) (fault : Option Mishap) (s : State) : Host.Outcome State Fault Refusal :=
  s.take dt fun s =>
    match s.rs.op with
    | some op =>
      match op.recKey with
      | some k => if isSave op.kind then s.saveEnds op k fault else s
      | none => s
    | none => s

/-! ## Restore -/

/-- The check word of the record a restore has read matches (R120, R121). -/
def RecordStore.copyIntact (r : RecordStore) (op : Operation) : Bool :=
  bankRead (r.bank r.active) (op.addr + 3) == crcWords op.body

/-- The buffer takes the image of a restored record (R120). -/
def MapStore.restored (f : Rgb) (t : TileTable) (m : MapStore) : MapStore :=
  { m with edit := m.edit.map fun e => { e with table := t, fill := f, result := none } }

/-- A context restore ends (R120, R128). CHECK-FAIL carries its reason, CHECK-WORD 0 or BAD-CONTENT 1 with the slot
(log 23). -/
def State.restoreContextEnds (op : Operation) (s : State) : State :=
  if !s.rs.copyIntact op then s.finish op .checkFail [0]
  else
    match imageCheck op.body with
    | .inl slot => s.finish op .checkFail [1, byteOf slot]
    | .inr (f, t) =>
      if op.attached ∧ s.ms.ownsEdit op.session then
        { s with ms := s.ms.restored f t }.finish op .ok [byteOf (usedCount t)]
      else s.finish op .ok [byteOf (usedCount t)]

/-- The completion of a context restore (R120). -/
def execRestoreContextCompletion (dt : Nat) (s : State) : Host.Outcome State Fault Refusal :=
  s.take dt fun s =>
    match s.rs.op with
    | some op => if op.kind = .restoreContext then s.restoreContextEnds op else s
    | none => s

/-- A table restore ends (R121, R128). -/
def State.restoreTableEnds (op : Operation) (s : State) : State :=
  if !s.rs.copyIntact op then s.finish op .checkFail [0]
  else
    match curvesOfBody op.body with
    | none => s.finish op .checkFail [1]
    | some t =>
      if op.attached ∧ s.cu.ownsStaging op.session then
        { s with cu := s.cu.stage fun _ => t }.finish op .ok []
      else s.finish op .ok []

/-- The completion of a table restore (R121). -/
def execRestoreTableCompletion (dt : Nat) (s : State) : Host.Outcome State Fault Refusal :=
  s.take dt fun s =>
    match s.rs.op with
    | some op => if op.kind = .restoreTable then s.restoreTableEnds op else s
    | none => s

/-! ## Delete -/

/-- A delete ends (R122). -/
def State.deleteEnds (op : Operation) (k : RecKey) (fault : Option Mishap) (s : State) : State :=
  let p := s.rs.perform fault 0 (s.rs.accesses op)
  match p.2 with
  | none => { s with rs := p.1.setEntry k none }.finish op .ok []
  | some f => ({ s with rs := { p.1 with full := true } }.finish op .writeFault []).raiseWriteFault f (some k)

/-- The completion of a delete (R122). -/
def execDeleteCompletion (dt : Nat) (fault : Option Mishap) (s : State) : Host.Outcome State Fault Refusal :=
  s.take dt fun s =>
    match s.rs.op with
    | some op =>
      match op.recKey with
      | some k => if op.kind = .deleteRecord then s.deleteEnds op k fault else s
      | none => s
    | none => s

/-! ## Compaction -/

/-- The store after step 6 of a compaction (R123). -/
def RecordStore.compacted (r : RecordStore) : RecordStore :=
  let moved := movedEntries Config.firstRecord r.liveByAddr
  { r with active := r.active.other, generation := nextGeneration r.generation, full := false,
           append := Config.firstRecord + (moved.map fun e => 4 + e.2.len).sum,
           directory := moved.foldl (fun d e => upd d e.1.idx (some e.2)) (Vector.replicate 13 none) }

/-- The results of a compaction: active bank, generation, free words (R123). -/
def compactResults (r : RecordStore) : List Byte :=
  bankCode r.active :: (wordBytes r.generation ++ bytes2 r.freeWords)

/-- A compaction ends (R123, R124): a verify failure before the last access, RETIRED in the former bank, aborts it. -/
def State.compactEnds (op : Operation) (fault : Option Mishap) (s : State) : State :=
  let as := s.rs.accesses op
  let p := s.rs.perform fault 0 as
  match p.2 with
  | none => { s with rs := p.1.compacted }.finish op .ok (compactResults p.1.compacted)
  | some f =>
    let rs := if f.step + 1 < as.length then p.1 else p.1.compacted
    ({ s with rs := rs }.finish op .writeFault []).raiseWriteFault f none

/-- The completion of a compaction (R123, R124). -/
def execCompactCompletion (dt : Nat) (fault : Option Mishap) (s : State) : Host.Outcome State Fault Refusal :=
  s.take dt fun s =>
    match s.rs.op with
    | some op => if op.kind = .compact then s.compactEnds op fault else s
    | none => s

/-! ## Erasure -/

/-- The store emptied, with bank A active at generation 1 (R126, R129). -/
def RecordStore.emptied (r : RecordStore) : RecordStore :=
  { r with active := .A, generation := 1, append := Config.firstRecord, full := false,
           directory := Vector.replicate 13 none }

/-- The same where a verify failure leaves no word to write (R126, R129). R126 gives the generation 1 for ERASE-STORE; R129
gives none for the load, where 1 is a DESIGN CHOICE (log 47). -/
def RecordStore.unusable (r : RecordStore) : RecordStore :=
  { r.emptied with append := Config.bankWords, full := true }

/-- An erasure of the store ends (R126). -/
def State.eraseEnds (op : Operation) (fault : Option Mishap) (s : State) : State :=
  let p := s.rs.perform fault 0 (s.rs.accesses op)
  match p.2 with
  | none => { s with rs := p.1.emptied }.finish op .ok []
  | some f => ({ s with rs := p.1.unusable }.finish op .writeFault []).raiseWriteFault f none

/-- The completion of an erasure (R126). -/
def execEraseStoreCompletion (dt : Nat) (fault : Option Mishap) (s : State) : Host.Outcome State Fault Refusal :=
  s.take dt fun s =>
    match s.rs.op with
    | some op => if op.kind = .eraseStore then s.eraseEnds op fault else s
    | none => s

end Sys2Proof.Machine
end

