-- ==== Sys2Proof/Machine/Startup.lean ====
section
/-!
DEFINITION. Power-on, RSTN and the release of reset (R198), what every block takes at a reset, and the start-up load
(R129 to R133, R190 to R192). A step of the load that is not the one due does nothing (log 3).
-/

namespace Sys2Proof.Machine

/-! ## Reset -/

/-- The state a reset leaves with what it does not set: elapsed time, the pins, the banks, the outputs and the queue of
commands. Timers that run from the release start now (R198). -/
def State.restarted (s : State) : State :=
  { State.reset with
      now := s.now, ports := s.ports.map fun p => Port.initial p.ready,
      cadenceTimer := some (s.now + codePeriod 5), rs := RecordStore.initial s.rs.bankA s.rs.bankB,
      up := Uplink.initial s.up.holdIn s.now, out := s.out, pending := s.pending }

/-- Held in reset: reset values, with no timer running and no record store access (R198). -/
def State.heldInReset (s : State) : State :=
  { s.restarted with
      held := true, cadenceTimer := none, rs := { s.restarted.rs with load := none },
      up := { s.restarted.up with idleTimer := none } }

/-- What the store was doing is cut off (R106, R127). -/
def State.cutStore (cut : Mishap) (s : State) : State := { s with rs := s.rs.cut cut }

/-- Power is applied, and the part is held in reset (R198). -/
def execPowerOn (dt : Nat) (cut : Mishap) (s : State) : Host.Outcome State Fault Refusal :=
  .next ((s.elapse dt).cutStore cut).heldInReset

/-- RSTN goes low, and the part is held in reset (R198). -/
def execRstnLow (dt : Nat) (cut : Mishap) (s : State) : Host.Outcome State Fault Refusal :=
  .next ((s.elapse dt).cutStore cut).heldInReset

/-- The release of reset (R198). A part that is not held in reset has none (log 3). -/
def execReleaseOfReset (dt : Nat) (s : State) : Host.Outcome State Fault Refusal :=
  .next (if s.held then (s.elapse dt).restarted else s.elapse dt)

/-- A FULL reset takes effect: power-on values, but the address is kept (R201). What reaches the lanes at this moment is
lost (R202). -/
def State.fullResetNow (cut : Mishap) (s : State) : State :=
  { (s.cutStore cut).restarted with address := s.address, resetAt := some s.now }

/-! ## The load's steps -/

/-- The load in progress, at a step. -/
def State.atStep (step : LoadStep) (s : State) : State :=
  { s with rs := { s.rs with load := s.rs.load.map fun l => { l with step := step } } }

/-- The bank chosen from the headers, if one is ACTIVE (R108, R129). -/
def RecordStore.choice (r : RecordStore) : Option BankId :=
  match headerActive r.bankA, headerActive r.bankB with
  | true, true => some (if newer (headerGeneration r.bankB) (headerGeneration r.bankA) then .B else .A)
  | true, false => some .A
  | false, true => some .B
  | false, false => none

/-- The header reads end (R129). The generation after a failed erase or header is the model's (log 47). -/
def State.chooseBank (fault : Option Mishap) (s : State) : State :=
  match s.rs.choice with
  | some b =>
    { s with rs := { s.rs with active := b, generation := headerGeneration (s.rs.bank b) } }.atStep .scan
  | none =>
    let p := s.rs.perform fault 0 (.erase .A :: freshHeader .A 1)
    match p.2 with
    | none => { s with rs := p.1.emptied }.atStep .scan
    | some f =>
      let rs := { p.1.unusable with load := p.1.load.map fun l => { l with step := .scan, skipScan := true } }
      { s with rs := rs }.raiseWriteFault f none

/-- The end of the header reads (R129). -/
def execStartupBankChoice (dt : Nat) (fault : Option Mishap) (s : State) : Host.Outcome State Fault Refusal :=
  s.take dt fun s =>
    match s.rs.load with
    | some l => if l.step = .headers then s.chooseBank fault else s
    | none => s

/-- What a scan has found so far (R130). -/
structure Scan where
  append    : Nat
  full      : Bool
  directory : Vector (Option DirEntry) 13
  stale     : List Nat
  faults    : List Detail
deriving DecidableEq, Repr

/-- A number put in its place in a rising list. -/
def insertNat (n : Nat) : List Nat → List Nat
  | [] => [n]
  | m :: ms => if n < m then n :: m :: ms else m :: insertNat n ms

/-- A VALID record noted (R130). -/
def Scan.note (b : BankId) (c : Cells Word) (a len : Nat) (sc : Scan) : Scan :=
  match keyOfWord (bankRead c (a + 1)) with
  | none => { sc with faults := sc.faults ++ [.storeFault .badContent b a none] }
  | some k =>
    let bad := !recordIntact c a len
    { sc with directory := upd sc.directory k.idx (some ⟨a, len, bad⟩),
              stale := match sc.directory[k.idx] with | some e => insertNat e.addr sc.stale | none => sc.stale,
              faults := if bad then sc.faults ++ [.storeFault .checkFail b a (some k)] else sc.faults }

/-- A scan that ends with the full mark set (R130). -/
def Scan.endFull (b : BankId) (a : Nat) (sc : Scan) : Scan :=
  { sc with append := Config.bankWords, full := true, faults := sc.faults ++ [.storeFault .scanEnded b a none] }

/-- The record that begins at a word can be passed: its length is in range and it ends within the bank (R130). -/
def recordFits (a len : Nat) : Bool :=
  decide (1 ≤ len) && decide (len ≤ Config.maxBody) && decide (a + 4 + len ≤ Config.bankWords)

/-- The scan from a word on (R130), over at most `n` records. -/
def Scan.run (b : BankId) (c : Cells Word) : Nat → Nat → Scan → Scan
  | 0, a, sc => { sc with append := a }
  | n + 1, a, sc =>
    if Config.bankWords ≤ a then { sc with append := a }
    else
      let state := bankRead c a
      let len := (bankRead c (a + 2)).toNat
      if state = 0xFFFF then { sc with append := a }
      else if state = wordFilling ∨ state = wordActive ∨ state = wordRetired then
        if recordFits a len then Scan.run b c n (a + 4 + len) (if state = wordActive then sc.note b c a len else sc)
        else sc.endFull b a
      else sc.endFull b a

/-- The most records a bank holds: a record takes at least five words (R109). -/
def maxRecords : Nat := 6554

/-- The scan of the active bank (R130). -/
def RecordStore.scan (r : RecordStore) : Scan :=
  Scan.run r.active (r.bank r.active) maxRecords Config.firstRecord
    ⟨Config.firstRecord, false, Vector.replicate 13 none, [], []⟩

/-- Notices raised one after another. -/
def State.raiseAll (ds : List Detail) (s : State) : State := ds.foldl (fun s d => s.raise d) s

/-- The keys to load, in ascending address order of their records (R131). -/
def RecordStore.toLoad (r : RecordStore) : List RecKey := r.liveByAddr.map Prod.fst

/-- The store after its scan. -/
def RecordStore.scanned (r : RecordStore) (sc : Scan) : RecordStore :=
  let r := { r with append := sc.append, full := sc.full, directory := sc.directory }
  { r with load := r.load.map fun l => { l with step := .records r.toLoad, stale := sc.stale } }

/-- The end of the scan (R130); a bank that could not be made ACTIVE is not scanned (R129, log 35). -/
def execStartupScan (dt : Nat) (s : State) : Host.Outcome State Fault Refusal :=
  s.take dt fun s =>
    match s.rs.load with
    | some l =>
      if l.step = .scan then
        if l.skipScan then s.atStep (.records [])
        else { s with rs := s.rs.scanned s.rs.scan }.raiseAll s.rs.scan.faults
      else s
    | none => s

/-- A context's record loaded (R131). -/
def State.loadContext (c : Fin 4) (e : DirEntry) (body : List Word) (s : State) : State :=
  if e.bad then s.raise (.contextLoadFailed c .checkFail)
  else
    match validateImage body with
    | .inr (f, t) => { s with ms := { s.ms with contexts := upd s.ms.contexts c ⟨.ready, t, f⟩ } }
    | .inl (.failed r n) => s.raise (.contextLoadFailed c (.validation r n))
    | .inl .ok => s

/-- The reason a table or settings record is not loaded: its mark, else its content (R131). -/
def DirEntry.refusal (e : DirEntry) : StoreFaultReason := if e.bad then .checkFail else .badContent

/-- A table's record loaded (R131). -/
def State.loadTable (t : Fin 8) (e : DirEntry) (body : List Word) (s : State) : State :=
  match (if e.bad then none else curvesOfBody body) with
  | some curves =>
    { s with cu := { s.cu with tables := upd s.cu.tables t curves },
             rs := { s.rs with load := s.rs.load.map fun l => { l with tables := upd l.tables t true } } }
  | none => s.raise (.storeFault e.refusal s.rs.active e.addr (some (.table t)))

/-- The configurations of a settings record at the ports (R86). -/
def configuredPorts (st : Settings) (ports : Vector Port 8) : Vector Port 8 :=
  Vector.ofFn fun i => { ports[i] with config := st.ports[i] }

/-- The classes of a settings record, each as if by SET-NOTICE-CLASS (R182). -/
def Notices.setClasses (cs : Vector (Fin 4) 16) (n : Notices) : Notices :=
  NoticeKind.all.foldl (fun n k => n.setClass k cs[k.idx]) n

/-- The settings record loaded (R131). -/
def State.loadSettings (e : DirEntry) (body : List Word) (s : State) : State :=
  match (if e.bad then none else settingsOfBody body) with
  | some st =>
    { s with ports := configuredPorts st s.ports, cadence := st.cadence, ns := s.ns.setClasses st.classes,
             rs := { s.rs with load := s.rs.load.map fun l => { l with start := st.start } } }
  | none => s.raise (.storeFault e.refusal s.rs.active e.addr (some .settings))

/-- A key's live record loaded (R131). -/
def State.loadRecord (k : RecKey) (s : State) : State :=
  match s.rs.entry k with
  | none => s
  | some e =>
    let body := recordBody (s.rs.bank s.rs.active) e.addr e.len
    match k with
    | .context c => s.loadContext c e body
    | .table t => s.loadTable t e body
    | .settings => s.loadSettings e body

/-- The next key, in ascending address order, is loaded (R131). -/
def execStartupRecordLoad (dt : Nat) (s : State) : Host.Outcome State Fault Refusal :=
  s.take dt fun s =>
    match s.rs.load with
    | some l =>
      match l.step with
      | .records (k :: todo) => (s.loadRecord k).atStep (.records todo)
      | .records [] | .headers | .scan | .report => s
    | none => s

/-! ## Tidying and the start selection -/

/-- One stale record programmed SUPERSEDED (R132); the device may leave another word there (log 9). -/
def State.tidyOne (faults : List (Nat × Word)) (s : State) (a : Nat) : State :=
  let m := (faults.find? fun f => f.1 == a).map fun f => (⟨0, f.2, []⟩ : Mishap)
  let p := s.rs.perform m 0 [.state s.rs.active a wordRetired .ordinary]
  match p.2 with
  | none => { s with rs := p.1 }
  | some f => { s with rs := { p.1 with full := true } }.raiseWriteFault f none

/-- STORE-NEARLY-FULL at the end of the load, while the full mark is clear (R132). -/
def RecordStore.loadNearlyFull (r : RecordStore) : Option Detail := if r.full then none else r.nearlyFull none

/-- The contexts a target names, in its order. -/
def Target.contexts : Target → List (Fin 4)
  | .context c => [c]
  | .sequence es => es.map SeqEntry.ctx

/-- The start selection placed (R133). -/
def State.placeStart (t : Option Target) (s : State) : State :=
  match t with
  | none => s
  | some t =>
    match t.contexts.find? fun c => !s.ms.isReady c with
    | some c => s.raise (.contextLoadFailed c .startSelection)
    | none => s.placeSwitch ⟨t, none, .sessionless⟩

/-- Stale records are tidied and the start selection is placed (R132, R133). -/
def execStartupTidy (dt : Nat) (faults : List (Nat × Word)) (s : State) : Host.Outcome State Fault Refusal :=
  s.take dt fun s =>
    match s.rs.load with
    | some l =>
      match l.step with
      | .records [] =>
        let s := l.stale.foldl (State.tidyOne faults) s
        ((s.raiseIf s.rs.loadNearlyFull).placeStart l.start).atStep .report
      | .records (_ :: _) | .headers | .scan | .report => s
    | none => s

/-- The STARTUP-COMPLETE detail (R192). -/
def State.startupComplete (l : Load) (s : State) : Detail :=
  .startupComplete s.rs.active s.rs.generation (s.ms.contexts.map fun c => c.status == .ready) l.tables

/-- The load is complete: the phase becomes RUNNING, then STARTUP-COMPLETE is raised (R190 to R192). -/
def execStartupLoadCompletion (dt : Nat) (s : State) : Host.Outcome State Fault Refusal :=
  s.take dt fun s =>
    match s.rs.load with
    | some l =>
      if l.step = .report then
        { s with phase := .running, rs := { s.rs with load := none } }.raise (s.startupComplete l)
      else s
    | none => s

end Sys2Proof.Machine
end

