-- ==== Sys2Proof/Machine/Link.lean ====
section
/-!
DEFINITION. The trunk link of chapter 7: dropped packets (R135), the downstream link state and the return lane at the
Downstream port (R140 to R143), the Upstream port's transmitter and the Return Arbiter (R144 to R147).
-/

namespace Sys2Proof.Machine

/-! ## The forward lane -/

/-- A packet that is not intact is dropped (R135). An intact one is never dropped (log 29). -/
def State.dropPacket (lane : Lane) (bytes : List Byte) (s : State) : State :=
  match dropReason lane bytes with
  | some r => s.raise (.trunkIntegrity lane r (byteAt bytes 0))
  | none => s

/-- A forward-lane packet dropped (R135). -/
def execForwardPacketDropped (dt : Nat) (bytes : List Byte) (s : State) : Host.Outcome State Fault Refusal :=
  s.receive dt fun s => s.dropPacket .forward bytes

/-! ## The return lane at the Downstream port -/

/-- The link timer after the HOLD output went from a level to the present one (R140). -/
def Downlink.followHold (now : Nat) (before : Bool) (d : Downlink) : Downlink :=
  if !d.up || before == d.holdOut then d
  else { d with linkTimer := if d.holdOut then none else some (now + Config.linkTimeout) }

/-- A change at the Downstream port, with the link timer following the HOLD output (R140, R143). -/
def State.changeDown (f : Downlink → Downlink) (s : State) : State :=
  { s with dn := (f s.dn).followHold s.now s.dn.holdOut }

/-- A return-lane packet begins to arrive (R143). Its reception lasts until the packet's own command, or until a reset,
by which the packet is lost (R148). -/
def execReturnReceptionBegins (dt : Nat) (s : State) : Host.Outcome State Fault Refusal :=
  s.receive dt fun s => s.changeDown fun d => { d with receiving := true }

/-- The Downstream port after an intact packet: UP, with the link timer started unless the HOLD output is high (R140). -/
def Downlink.heard (now : Nat) (buffer : List (List Byte)) (d : Downlink) : Downlink :=
  let d := { d with up := true, receiving := false, buffer := buffer }
  { d with linkTimer := if d.holdOut then none else some (now + Config.linkTimeout) }

/-- A return-lane packet completes the reception in progress. Without one, as after a reset that came between its
beginning and its end, the packet is lost (R148, log 3). -/
def State.completeReception (dt : Nat) (s : State) (f : State → State) : Host.Outcome State Fault Refusal :=
  s.receive dt fun s => if s.dn.receiving then f s else s

/-- An intact return-lane packet completes reception, leaving the buffer as given; a change to UP is raised (R140). -/
def State.heard (buffer : List (List Byte)) (s : State) : State :=
  { s with dn := s.dn.heard s.now buffer }.raiseIf (if s.dn.up then none else some (.downstreamLink true))

/-- An intact return-lane packet other than IDLE: it joins the pass-through buffer, or is dropped as OVERFLOW (R141 to
R143, log 30). -/
def execReturnPacket (dt : Nat) (bytes : List Byte) (s : State) : Host.Outcome State Fault Refusal :=
  s.completeReception dt fun s =>
    if s.dn.buffer.length < Config.passBuffer then s.heard (s.dn.buffer ++ [bytes])
    else (s.heard s.dn.buffer).raise (.trunkIntegrity .return .overflow (byteAt bytes 0))

/-- An intact return-lane IDLE (R141): it acts on the link and is discarded. That it raises no OVERFLOW while four packets
are buffered is a DESIGN CHOICE (log 45). -/
def execReturnIdle (dt : Nat) (s : State) : Host.Outcome State Fault Refusal :=
  s.completeReception dt fun s => s.heard s.dn.buffer

/-- A return-lane packet that is not intact (R141, R143): its reception ends. -/
def execReturnPacketDropped (dt : Nat) (bytes : List Byte) (s : State) : Host.Outcome State Fault Refusal :=
  s.completeReception dt fun s => (s.changeDown fun d => { d with receiving := false }).dropPacket .return bytes

/-- The link timer expires (R140). -/
def execLinkTimerExpiry (dt : Nat) (s : State) : Host.Outcome State Fault Refusal :=
  s.take dt fun s =>
    match s.dn.linkTimer with
    | none => s
    | some t =>
      let s := s.reach t
      { s with dn := { s.dn with up := false, linkTimer := none } }.raise (.downstreamLink false)

/-! ## The Return Arbiter -/

/-- What the local source offers: the oldest filled response, else the chosen notice (R146, R184). -/
def State.localOffer (s : State) : Option SendSource :=
  match s.rq.head with
  | some (i, _) => some (.response i)
  | none => (s.ns.chosen s.address).map .notice

/-- What the pass-through source offers (R146). -/
def State.passOffer (s : State) : Option SendSource := s.dn.buffer.head?.map fun _ => .pass

/-- The choice, and the turn after it (R146). -/
def arbitrate (turn : Turn) : Option SendSource → Option SendSource → Option (SendSource × Turn)
  | some l, some p =>
    match turn with
    | .toLocal => some (l, .toPass)
    | .toPass => some (p, .toLocal)
  | some l, none => some (l, .toPass)
  | none, some p => some (p, .toLocal)
  | none, none => none

/-- The Return Arbiter's choice as the sources stand (R146). -/
def State.choice (s : State) : Option (SendSource × Turn) := arbitrate s.up.turn s.localOffer s.passOffer

/-! ## The transmitter -/

/-- The packet of a source, as the Upstream port copies it (R144, R185). -/
def State.packetOf (s : State) : SendSource → List Byte
  | .response i =>
    match s.rq.slots[i] with
    | .filled r => responsePacket r
    | .reserved .. | .free => []
  | .notice k =>
    match s.ns.slots[k.idx].body with
    | some p => noticePacket s.address k s.ns.slots[k.idx].cls p
    | none => []
  | .pass => s.dn.buffer.headD []
  | .idle | .detached => returnIdlePacket

/-- A notice's slot is marked when its transmission begins (R185). -/
def Notices.beginFor (n : Notices) : SendSource → Notices
  | .notice k => n.beginSend k
  | .response _ | .pass | .idle | .detached => n

/-- A transmission begins: the port takes its copy, and the IDLE interval starts again (R144, R145). -/
def State.beginSend (src : SendSource) (turn : Turn) (s : State) : State :=
  { s with ns := s.ns.beginFor src,
           up := { s.up with sending := some ⟨src, s.packetOf src⟩, turn := turn, idleDue := false,
                             idleTimer := some (s.now + Config.idleInterval) },
           out := s.out ++ [.upstream (s.packetOf src)] }

/-- The Upstream port is free to begin a packet (R144). -/
def State.mayBegin (s : State) : Bool := s.up.sending.isNone && !s.up.holdIn

/-- An IDLE that is due is sent when nothing else is to be (R145). -/
def State.sendIdle (s : State) : State :=
  if s.mayBegin && s.up.idleDue && s.choice.isNone then s.beginSend .idle s.up.turn else s

/-- The HOLD input rises (R144). A pin, it is followed even while the part is held in reset. -/
def execHoldInputRises (dt : Nat) (s : State) : Host.Outcome State Fault Refusal :=
  .next (let s := s.elapse dt; { s with up := { s.up with holdIn := true } })

/-- The HOLD input falls: an IDLE that is due begins unless a source has a packet (R144, R145, log 12). -/
def execHoldInputFalls (dt : Nat) (s : State) : Host.Outcome State Fault Refusal :=
  .next (let s := s.elapse dt; { s with up := { s.up with holdIn := false } }.sendIdle)

/-- The Upstream port begins a packet: the Return Arbiter's choice, or an IDLE that is due (R144 to R146). -/
def execTransmissionBegins (dt : Nat) (s : State) : Host.Outcome State Fault Refusal :=
  s.take dt fun s =>
    if s.mayBegin then
      match s.choice with
      | some (src, turn) => s.beginSend src turn
      | none => s.sendIdle
    else s

/-- The IDLE interval has passed (R145). -/
def execIdleIntervalExpiry (dt : Nat) (s : State) : Host.Outcome State Fault Refusal :=
  s.take dt fun s =>
    match s.up.idleTimer with
    | none => s
    | some t =>
      let s := s.reach t
      { s with up := { s.up with idleTimer := none, idleDue := true } }.sendIdle

/-- The source of a completed transmission is told (R147, R178, R187). -/
def State.sent (src : SendSource) (s : State) : State :=
  match src with
  | .response i => { s with rq := s.rq.release i }
  | .notice k => { s with ns := s.ns.endSend k }
  | .pass => s.changeDown fun d => { d with buffer := d.buffer.drop 1 }
  | .idle | .detached => s

/-- A transmission completes (R147). The end of the response of a RESET(FULL) makes the reset take effect, which cuts
off the access in progress as `cut` says (R201). -/
def execTransmissionCompletion (dt : Nat) (cut : Mishap) (s : State) : Host.Outcome State Fault Refusal :=
  s.take dt fun s =>
    match s.up.sending with
    | none => s
    | some t =>
      let full := s.fullReset.any fun i => t.source == .response i
      let s := { s with up := { s.up with sending := none } }.sent t.source
      if full then s.fullResetNow cut else s

end Sys2Proof.Machine
end

