-- ==== Sys2Proof/Machine/Resets.lean ====
section
/-!
DEFINITION. Enumeration (R194 to R196) and RESET (R199 to R201) of chapter 10.
-/

namespace Sys2Proof.Machine

/-! ## Enumeration -/

/-- The packet of an ENUMERATE. -/
def enumeratePacket (c : Ctl) : List Byte := controlPacket (reqCode .enumerate) c

/-- The packet with its first operand set to the next address (R138, R203). -/
def nextEnumerate (a : Byte) (c : Ctl) : Ctl := { c with ops := (a + 1) :: c.ops.drop 1 }

/-- An enumeration that is taken, with its reserved slot (R195). -/
def State.enumerated (a : Byte) (c : Ctl) (rq : Fin 8) (s : State) : State :=
  if a.toNat ≤ 250 then
    (({ s with address := a }.respond (reqCode .enumerate) c rq .ok [a]).raise (.addressAssigned a s.address)).forward
      (enumeratePacket (nextEnumerate a c))
  else (s.respond (reqCode .enumerate) c rq .noAddress [s.address]).forward (enumeratePacket c)

/-- An enumeration decided (R194). -/
def State.enumeration (c : Ctl) (s : State) : State :=
  match enumerateOperands c.ops with
  | none => s.forward (enumeratePacket c)
  | some (a, force) =>
    if s.address ≠ 0 ∧ force = false then s.forward (enumeratePacket c)
    else if s.fullReset.isSome then s.forward (enumeratePacket c)
    else
      match s.rq.freeSlot with
      | none => s.forward (enumeratePacket c)
      | some rq => { s with rq := s.rq.reserve rq c.key c.seq (reqCode .enumerate) }.enumerated a c rq

/-- An ENUMERATE that is executed as a request is refused (R196). -/
def enumerateBody : Body := fun _ s => refuse .badOperand s

/-- ENUMERATE: an enumeration with destination 0, a request like any other otherwise (R194, R196). -/
def execEnumerate (dt : Nat) (c : Ctl) (s : State) : Host.Outcome State Fault Refusal :=
  s.receive dt fun s => if c.dest = 0 then s.arrive.enumeration c else s.request .enumerate enumerateBody c

/-! ## RESET -/

/-- A transmission of a response goes on from the port's copy alone once the response queue is emptied (R178, R189). -/
def Sending.detach (t : Sending) : Sending :=
  match t.source with
  | .response _ => { t with source := .detached }
  | .notice _ | .pass | .idle | .detached => t

/-- An operation whose session a SOFT reset has ended goes on unanswered (R128, R168). -/
def Operation.detach (op : Operation) : Operation := { op with attached := false }

/-- A SOFT reset, up to its response (R200 steps 1 to 3). -/
def State.softReset (s : State) : State :=
  ({ s with rq := ResponseQueue.initial, ns := s.ns.emptied, sessions := Vector.replicate 4 none,
            ms := s.ms.releaseEdit, cu := s.cu.releaseStaging,
            up := { s.up with sending := s.up.sending.map Sending.detach },
            rs := { s.rs with op := s.rs.op.map Operation.detach } }.raiseIf
      (s.ms.editAbandoned true)).raiseIf (s.cu.stagingAbandoned true)

/-- RESET at the Management Engine (R199): SOFT is carried out, FULL becomes pending with the slot of its response. -/
def resetBody : Body := fun k s =>
  match resetOperand k.ops with
  | none => refuse .badOperand s
  | some false => (s.softReset, .uncached .ok [0])
  | some true => ({ s with fullReset := k.rq }, .uncached .ok [1])

/-- RESET (R199 to R201). -/
def execReset (dt : Nat) (c : Ctl) (s : State) : Host.Outcome State Fault Refusal :=
  request .reset resetBody dt c s

end Sys2Proof.Machine
end

