-- ==== Sys2Proof/Machine/Dispatch.lean ====
section
/-!
DEFINITION. One arm for each command: its meaning.
-/

namespace Sys2Proof.Machine

/-- The effect of a command on everything but the queue of commands. -/
def exec (i : Instr) (s : State) : Host.Outcome State Fault Refusal :=
  match i with
  | .powerOn dt cut => Sys2Proof.Machine.execPowerOn dt cut s
  | .rstnLow dt cut => Sys2Proof.Machine.execRstnLow dt cut s
  | .releaseOfReset dt => Sys2Proof.Machine.execReleaseOfReset dt s
  | .startupBankChoice dt fault => Sys2Proof.Machine.execStartupBankChoice dt fault s
  | .startupScan dt => Sys2Proof.Machine.execStartupScan dt s
  | .startupRecordLoad dt => Sys2Proof.Machine.execStartupRecordLoad dt s
  | .startupTidy dt faults => Sys2Proof.Machine.execStartupTidy dt faults s
  | .startupLoadCompletion dt => Sys2Proof.Machine.execStartupLoadCompletion dt s
  | .forwardPacketDropped dt bytes => Sys2Proof.Machine.execForwardPacketDropped dt bytes s
  | .frameStart dt frame width height => Sys2Proof.Machine.execFrameStart dt frame width height s
  | .line dt frame y x0 pixels => Sys2Proof.Machine.execLine dt frame y x0 pixels s
  | .frameEnd dt frame runs => Sys2Proof.Machine.execFrameEnd dt frame runs s
  | .idle dt => Sys2Proof.Machine.execIdle dt s
  | .forwardUnknownKind dt bytes => Sys2Proof.Machine.execForwardUnknownKind dt bytes s
  | .controlNotAddressed dt kind c => Sys2Proof.Machine.execControlNotAddressed dt kind c s
  | .unknownRequest dt kind c => Sys2Proof.Machine.execUnknownRequest dt kind c s
  | .openSession dt c => Sys2Proof.Machine.execOpenSession dt c s
  | .closeSession dt c => Sys2Proof.Machine.execCloseSession dt c s
  | .keep dt c => Sys2Proof.Machine.execKeep dt c s
  | .readStatus dt c => Sys2Proof.Machine.execReadStatus dt c s
  | .cursorSet dt c => Sys2Proof.Machine.execCursorSet dt c s
  | .cursorWrite dt c => Sys2Proof.Machine.execCursorWrite dt c s
  | .cursorRead dt c => Sys2Proof.Machine.execCursorRead dt c s
  | .readTile dt c => Sys2Proof.Machine.execReadTile dt c s
  | .openEdit dt c => Sys2Proof.Machine.execOpenEdit dt c s
  | .setTile dt c => Sys2Proof.Machine.execSetTile dt c s
  | .clearTile dt c => Sys2Proof.Machine.execClearTile dt c s
  | .setFill dt c => Sys2Proof.Machine.execSetFill dt c s
  | .checkEdit dt c => Sys2Proof.Machine.execCheckEdit dt c s
  | .closeEdit dt c => Sys2Proof.Machine.execCloseEdit dt c s
  | .abandonEdit dt c => Sys2Proof.Machine.execAbandonEdit dt c s
  | .selectContext dt c => Sys2Proof.Machine.execSelectContext dt c s
  | .selectSequence dt c => Sys2Proof.Machine.execSelectSequence dt c s
  | .cancelSelect dt c => Sys2Proof.Machine.execCancelSelect dt c s
  | .hold dt c => Sys2Proof.Machine.execHold dt c s
  | .release dt c => Sys2Proof.Machine.execRelease dt c s
  | .beginTable dt c => Sys2Proof.Machine.execBeginTable dt c s
  | .endTable dt c => Sys2Proof.Machine.execEndTable dt c s
  | .abandonTable dt c => Sys2Proof.Machine.execAbandonTable dt c s
  | .setPort dt c => Sys2Proof.Machine.execSetPort dt c s
  | .forcePattern dt c => Sys2Proof.Machine.execForcePattern dt c s
  | .setCadence dt c => Sys2Proof.Machine.execSetCadence dt c s
  | .readPort dt c => Sys2Proof.Machine.execReadPort dt c s
  | .saveContext dt c => Sys2Proof.Machine.execSaveContext dt c s
  | .saveTable dt c => Sys2Proof.Machine.execSaveTable dt c s
  | .saveSettings dt c => Sys2Proof.Machine.execSaveSettings dt c s
  | .restoreContext dt c => Sys2Proof.Machine.execRestoreContext dt c s
  | .restoreTable dt c => Sys2Proof.Machine.execRestoreTable dt c s
  | .deleteRecord dt c => Sys2Proof.Machine.execDeleteRecord dt c s
  | .compact dt c => Sys2Proof.Machine.execCompact dt c s
  | .eraseStore dt c => Sys2Proof.Machine.execEraseStore dt c s
  | .readStoreStatus dt c => Sys2Proof.Machine.execReadStoreStatus dt c s
  | .setNoticeClass dt c => Sys2Proof.Machine.execSetNoticeClass dt c s
  | .enumerate dt c => Sys2Proof.Machine.execEnumerate dt c s
  | .reset dt c => Sys2Proof.Machine.execReset dt c s
  | .saveCompletion dt fault => Sys2Proof.Machine.execSaveCompletion dt fault s
  | .restoreContextCompletion dt => Sys2Proof.Machine.execRestoreContextCompletion dt s
  | .restoreTableCompletion dt => Sys2Proof.Machine.execRestoreTableCompletion dt s
  | .deleteCompletion dt fault => Sys2Proof.Machine.execDeleteCompletion dt fault s
  | .compactCompletion dt fault => Sys2Proof.Machine.execCompactCompletion dt fault s
  | .eraseStoreCompletion dt fault => Sys2Proof.Machine.execEraseStoreCompletion dt fault s
  | .leaseExpiry dt slot => Sys2Proof.Machine.execLeaseExpiry dt slot s
  | .signalTimerExpiry dt => Sys2Proof.Machine.execSignalTimerExpiry dt s
  | .lineGapTimerExpiry dt => Sys2Proof.Machine.execLineGapTimerExpiry dt s
  | .acquisitionTimerExpiry dt => Sys2Proof.Machine.execAcquisitionTimerExpiry dt s
  | .holdoverDeadlineExpiry dt => Sys2Proof.Machine.execHoldoverDeadlineExpiry dt s
  | .lossTimerExpiry dt => Sys2Proof.Machine.execLossTimerExpiry dt s
  | .readyRises dt port => Sys2Proof.Machine.execReadyRises dt port s
  | .readyFalls dt port => Sys2Proof.Machine.execReadyFalls dt port s
  | .transferCompletion dt port => Sys2Proof.Machine.execTransferCompletion dt port s
  | .stallTimerExpiry dt port => Sys2Proof.Machine.execStallTimerExpiry dt port s
  | .cadenceExpiry dt => Sys2Proof.Machine.execCadenceExpiry dt s
  | .generatedLinePlaced dt port => Sys2Proof.Machine.execGeneratedLinePlaced dt port s
  | .returnReceptionBegins dt => Sys2Proof.Machine.execReturnReceptionBegins dt s
  | .returnPacket dt bytes => Sys2Proof.Machine.execReturnPacket dt bytes s
  | .returnIdle dt => Sys2Proof.Machine.execReturnIdle dt s
  | .returnPacketDropped dt bytes => Sys2Proof.Machine.execReturnPacketDropped dt bytes s
  | .linkTimerExpiry dt => Sys2Proof.Machine.execLinkTimerExpiry dt s
  | .holdInputRises dt => Sys2Proof.Machine.execHoldInputRises dt s
  | .holdInputFalls dt => Sys2Proof.Machine.execHoldInputFalls dt s
  | .transmissionBegins dt => Sys2Proof.Machine.execTransmissionBegins dt s
  | .idleIntervalExpiry dt => Sys2Proof.Machine.execIdleIntervalExpiry dt s
  | .transmissionCompletion dt cut => Sys2Proof.Machine.execTransmissionCompletion dt cut s

end Sys2Proof.Machine
end

