-- ==== Sys2Proof/Safety.lean ====
section
/-!
DEFINITION. The words claims are made in: when a command meets the conditions under which the spec gives it its own
effect, how a request that is executed is answered, and the invariants a safe run keeps.
-/

namespace Sys2Proof

open Machine

/-- The operand bytes of a request are not those its kind takes (R154): a field is missing, in excess or out of range.
OPEN-SESSION is not listed, which is not executed in a session (R158); ENUMERATE is never well formed there (R196). -/
def ReqKind.malformed (k : ReqKind) (ops : List Byte) : Bool :=
  match k with
  | .openSession => false
  | .enumerate => true
  | .closeSession | .keep | .checkEdit | .closeEdit | .abandonEdit | .cancelSelect | .hold | .release | .endTable
  | .abandonTable | .saveSettings | .compact | .eraseStore | .readStoreStatus => !ops.isEmpty
  | .readStatus => (readStatusOperands ops).isNone
  | .cursorSet => (cursorSetOperands ops).isNone
  | .cursorWrite => (cursorWriteOperands ops).isNone
  | .cursorRead => (cursorReadOperands ops).isNone
  | .readTile => (readTileOperands ops).isNone
  | .openEdit => (openEditOperands ops).isNone
  | .setTile => (setTileOperands ops).isNone
  | .clearTile => (finOperand 32 ops).isNone
  | .setFill => (setFillOperands ops).isNone
  | .selectContext => (selectContextOperands ops).isNone
  | .selectSequence => (selectSequenceOperands ops).isNone
  | .beginTable => (beginTableOperands ops).isNone
  | .setPort => (setPortOperands ops).isNone
  | .forcePattern => (forcePatternOperands ops).isNone
  | .setCadence => (finOperand 16 ops).isNone
  | .readPort => (finOperand 8 ops).isNone
  | .saveContext => (finOperand 4 ops).isNone
  | .saveTable => (finOperand 8 ops).isNone
  | .restoreContext => (contextKeyOperand ops).isNone
  | .restoreTable => (tableKeyOperand ops).isNone
  | .deleteRecord => (keyOperand ops).isNone
  | .setNoticeClass => (noticeClassOperands ops).isNone
  | .reset => (resetOperand ops).isNone

/-- The microseconds since the command before that a command carries (log 1). -/
def Instr.elapsed : Instr → Nat
  | .releaseOfReset d | .startupScan d | .startupRecordLoad d | .startupLoadCompletion d | .idle d
  | .restoreContextCompletion d | .restoreTableCompletion d | .signalTimerExpiry d | .lineGapTimerExpiry d
  | .acquisitionTimerExpiry d | .holdoverDeadlineExpiry d | .lossTimerExpiry d | .cadenceExpiry d
  | .returnReceptionBegins d | .returnIdle d | .linkTimerExpiry d | .holdInputRises d | .holdInputFalls d
  | .transmissionBegins d | .idleIntervalExpiry d => d
  | .powerOn d _ | .rstnLow d _ | .startupBankChoice d _ | .startupTidy d _ | .forwardPacketDropped d _
  | .forwardUnknownKind d _ | .openSession d _ | .closeSession d _ | .keep d _ | .readStatus d _
  | .cursorSet d _ | .cursorWrite d _ | .cursorRead d _ | .readTile d _ | .openEdit d _ | .setTile d _
  | .clearTile d _ | .setFill d _ | .checkEdit d _ | .closeEdit d _ | .abandonEdit d _ | .selectContext d _
  | .selectSequence d _ | .cancelSelect d _ | .hold d _ | .release d _ | .beginTable d _ | .endTable d _
  | .abandonTable d _ | .setPort d _ | .forcePattern d _ | .setCadence d _ | .readPort d _ | .saveContext d _
  | .saveTable d _ | .saveSettings d _ | .restoreContext d _ | .restoreTable d _ | .deleteRecord d _
  | .compact d _ | .eraseStore d _ | .readStoreStatus d _ | .setNoticeClass d _ | .enumerate d _ | .reset d _
  | .saveCompletion d _ | .deleteCompletion d _ | .compactCompletion d _ | .eraseStoreCompletion d _
  | .leaseExpiry d _ | .readyRises d _ | .readyFalls d _ | .transferCompletion d _ | .stallTimerExpiry d _
  | .generatedLinePlaced d _ | .returnPacket d _ | .returnPacketDropped d _ | .transmissionCompletion d _ => d
  | .frameEnd d _ _ | .controlNotAddressed d _ _ | .unknownRequest d _ _ => d
  | .frameStart d _ _ _ => d
  | .line d _ _ _ _ => d

end Sys2Proof

namespace Sys2Proof.Machine

/-! ## Conditions on a request -/

/-- What reaches a lane `dt` from now is received: the part is out of reset, and a FULL reset did not take effect at that
very moment (R198, R202). -/
def State.Receives (dt : Nat) (s : State) : Prop := s.held = false ∧ s.resetAt ≠ some (s.now + dt)

/-- An addressed request, `dt` from now, finds a response slot: the part receives, the packet's destination is the cabinet
address, no FULL reset is pending, and `rq` is the slot that is reserved (R136, R152, R201). -/
structure Addressed (dt : Nat) (c : Ctl) (s : State) (rq : Fin 8) : Prop where
  released : s.Receives dt
  dest     : c.dest = s.address
  assigned : c.dest ≠ 0
  notAll   : c.dest ≠ 255
  noReset  : s.fullReset = none
  slot     : s.rq.freeSlot = some rq

/-- The next request of the READY session `d` in slot `i` (R153, R159). -/
structure InTurn (dt : Nat) (c : Ctl) (s : State) (rq : Fin 8) (i : Fin 4) (d : Session) : Prop where
  addressed : Addressed dt c s rq
  running   : s.phase = .running
  keyed     : c.key ≠ 0
  found     : s.findSession c.key = some (i, d)
  ready     : ∃ leaseEnd cache, d.state = .ready leaseEnd cache
  next      : c.seq = d.last + 1

/-- A sessionless request (R153, R156). -/
structure Sessionless (dt : Nat) (c : Ctl) (s : State) (rq : Fin 8) : Prop where
  addressed : Addressed dt c s rq
  running   : s.phase = .running
  keyless   : c.key = 0

/-- A broadcast that may be executed (R155, R201). -/
structure Broadcast (dt : Nat) (c : Ctl) (s : State) : Prop where
  released : s.Receives dt
  dest     : c.dest = 255
  running  : s.phase = .running
  noReset  : s.fullReset = none

/-! ## How a request is answered -/

/-- The state in which an addressed request is tested: time has passed, the Frame Tracker has seen the packet, and the
response slot is reserved. -/
def State.received (dt : Nat) (code : Byte) (c : Ctl) (rq : Fin 8) (s : State) : State :=
  { (s.elapse dt).arrive with rq := s.rq.reserve rq c.key c.seq code }

/-- A response put in the reserved slot, and nothing else changed. -/
def State.answered (code : Byte) (c : Ctl) (rq : Fin 8) (st : Status) (res : List Byte) (s : State) : State :=
  { s with rq := s.rq.fill rq ⟨s.address, c.key, c.seq, code, st, res⟩ }

/-- The session of an executed request: the last executed is its number, the response is cached, the lease is full. -/
def Session.executed (now : Nat) (code seq : Byte) (st : Status) (res : List Byte) (d : Session) : Session :=
  { d with last := seq, state := .ready (now + leaseLength d.lease) ⟨code, seq, st, res⟩ }

/-- A session request executed and answered (R159, R160): beside the response only its session slot changes. -/
def State.executedIn (code : Byte) (c : Ctl) (rq : Fin 8) (i : Fin 4) (d : Session) (st : Status) (res : List Byte)
    (s : State) : State :=
  { s.answered code c rq st res with sessions := upd s.sessions i (some (d.executed s.now code c.seq st res)) }

/-- `cmd`, the request of kind `kind` in a session, is executed with effect `eff` and answered. Status and results may
depend on the state it is tested in. -/
def AnsweredInSession (kind : ReqKind) (cmd : Instr) (dt : Nat) (c : Ctl) (s : State) (rq : Fin 8) (i : Fin 4)
    (d : Session) (st : Status) (res : State → List Byte) (eff : State → State) : Prop :=
  let s0 := s.received dt (reqCode kind) c rq
  exec cmd s = .next ((eff s0).executedIn (reqCode kind) c rq i d st (res s0))

/-- The same request from a session and sessionless. -/
def AnsweredEither (kind : ReqKind) (cmd : Instr) (dt : Nat) (c : Ctl) (s : State) (st : Status)
    (res : State → List Byte) (eff : Issuer → State → State) : Prop :=
  (∀ rq i d, InTurn dt c s rq i d → AnsweredInSession kind cmd dt c s rq i d st res (eff (.session c.key))) ∧
  (∀ rq, Sessionless dt c s rq →
    let s0 := s.received dt (reqCode kind) c rq
    exec cmd s = .next ((eff .sessionless s0).answered (reqCode kind) c rq st (res s0)))

/-- The same request from a session, sessionless, and in a broadcast, which is forwarded and gets no answer. -/
def AnsweredAny (kind : ReqKind) (cmd : Instr) (dt : Nat) (c : Ctl) (s : State) (st : Status)
    (res : State → List Byte) (eff : Issuer → State → State) : Prop :=
  AnsweredEither kind cmd dt c s st res eff ∧
  (Broadcast dt c s →
    exec cmd s = .next (eff .broadcast (((s.elapse dt).forward (controlPacket (reqCode kind) c)).arrive)))

/-- The state a long request leaves when it is accepted (R113, R166): the operation in flight, and the session WAITING
with the lease time it had. -/
def State.acceptedIn (kind : ReqKind) (c : Ctl) (rq : Fin 8) (i : Fin 4) (d : Session) (leaseEnd : Nat)
    (op : Operation) (s : State) : State :=
  { s with rs := { s.rs with op := some op },
           sessions := upd s.sessions i
             (some { d with last := c.seq, state := .waiting (leaseEnd - s.now) kind c.seq rq }) }

/-- The state a completed long request leaves (R113, R167): no operation in flight, the reserved slot filled, and the
session READY with the response cached and the full lease. -/
def State.completedIn (op : Operation) (d : Session) (kind : ReqKind) (seq : Byte) (rq : Fin 8) (st : Status)
    (res : List Byte) (s : State) : State :=
  { s with rs := { s.rs with op := none },
           rq := s.rq.fill rq ⟨s.address, d.key, seq, reqCode kind, st, res⟩,
           sessions := upd s.sessions op.slot
             (some { d with state := .ready (s.now + leaseLength d.lease) ⟨reqCode kind, seq, st, res⟩ }) }

/-- The operation in flight with the session that waits for it (R166). -/
structure InFlight (s : State) (op : Operation) (d : Session) (kind : ReqKind) (seq : Byte) (rq : Fin 8) : Prop where
  released : s.held = false
  flying   : s.rs.op = some op
  attached : op.attached = true
  session  : s.sessions[op.slot] = some d
  waiting  : ∃ held, d.state = .waiting held kind seq rq

/-! ## Completion of raster lines -/

/-- `n` raster lines of a frame map complete from line `front` on, in ascending order (R81 to R83, R85): each hands every
port, in port order (log 16), its port line, formed of what `rows` received on the line at the front and of nothing
received on a later one. -/
def State.linesComplete (m : FrameMap) (rows : List RowProgress) (front n : Nat) (s : State) : State :=
  (List.range' front n).foldl (fun s y =>
    ([0, 1, 2, 3, 4, 5, 6, 7] : List (Fin 8)).foldl (fun s p =>
      match portLine m (if y = front then rows else []) y p with
      | some l => s.handLine p m.number l
      | none => s) s) s

/-! ## Operands and releases -/

/-- The Map Store without an edit buffer of this key: its target is back at the prior status (R27). -/
def MapStore.withoutEditOf (m : MapStore) (key : Byte) : MapStore :=
  match m.edit with
  | some e =>
    if e.owner = key then
      { m with edit := none,
               contexts := upd m.contexts e.target
                 { m.contexts[e.target] with
                     status := match e.prior with | .blank => CtxStatus.blank | .ready => CtxStatus.ready } }
    else m
  | none => m

/-- The Correction Unit without a staging area of this key (R74). -/
def CorrectionUnit.withoutStagingOf (c : CorrectionUnit) (key : Byte) : CorrectionUnit :=
  match c.staging with
  | .owned k _ _ => if k = key then { c with staging := .free } else c
  | .free | .held .. => c

/-! ## Invariants -/

/-- The curves of a table: canonical, and every entry 0..4095 at an index of the three curves (R68). -/
def curvesOk (t : Curves) : Prop :=
  Memory.wf identityEntry t = true ∧ ∀ e ∈ t, e.1 < Config.tableEntries ∧ e.2 < 4096

/-- The staging curves, while there are any. -/
def stagingOk : Staging → Prop
  | .free => True
  | .owned _ _ curves | .held _ curves => curvesOk curves

/-- Addressed storage has its canonical form: equal contents are equal data. -/
structure StorageOk (s : State) : Prop where
  bankA   : Memory.wf erased s.rs.bankA = true
  bankB   : Memory.wf erased s.rs.bankB = true
  tables  : ∀ t : Fin 8, curvesOk s.cu.tables[t]
  staging : stagingOk s.cu.staging

/-- The queues hold no more than the spec gives them, and a transfer in progress has its line (R90, R142). -/
structure QueuesOk (s : State) : Prop where
  ports    : ∀ p : Fin 8, s.ports[p].queue.length ≤ 8
  transfer : ∀ p : Fin 8, s.ports[p].transferring = true → s.ports[p].queue ≠ []
  passing  : s.dn.buffer.length ≤ 4

/-- Every context the active selection or the switch part names is READY, a context is OPEN exactly while the edit
buffer has it as its target, and no edit is in progress before the phase is RUNNING (R4, R28, R34). -/
structure MapOk (s : State) : Prop where
  shown   : ∀ c : Fin 4, s.ms.inUse c = true → s.ms.contexts[c].status = .ready
  target  : ∀ e, s.ms.edit = some e → s.ms.contexts[e.target].status = .opened
  onlyOne : ∀ c : Fin 4, s.ms.contexts[c].status = .opened → ∃ e, s.ms.edit = some e ∧ e.target = c
  loading : s.rs.load ≠ none → s.phase = .starting
  noEdit  : s.phase = .starting → s.ms.edit = none

/-- A session slot that is not FREE holds the key. -/
def State.opened (s : State) (key : Byte) : Prop := ∃ i : Fin 4, ∃ d, s.sessions[i] = some d ∧ d.key = key

/-- Session keys are 1..255 and unique, and the edit buffer and the staging area are owned by open sessions (R18, R70,
R157). -/
structure SessionsOk (s : State) : Prop where
  nonzero : ∀ i : Fin 4, ∀ d, s.sessions[i] = some d → d.key ≠ 0
  unique  : ∀ i j : Fin 4, ∀ d e, s.sessions[i] = some d → s.sessions[j] = some e → d.key = e.key → i = j
  editor  : ∀ e, s.ms.edit = some e → s.opened e.owner
  stager  : ∀ key t curves, s.cu.staging = .owned key t curves → s.opened key

/-- The fill order holds each filled slot of the response queue once (R176). -/
structure ResponsesOk (s : State) : Prop where
  once   : s.rq.order.Nodup
  filled : ∀ i : Fin 8, i ∈ s.rq.order ↔ ∃ r, s.rq.slots[i] = .filled r

/-- The pending list holds each PENDING kind once, a PENDING slot counts 1..255, and it never has class 3 (R180,
R181). -/
structure NoticesOk (s : State) : Prop where
  once    : s.ns.list.Nodup
  pending : ∀ k : NoticeKind, k ∈ s.ns.list ↔ s.ns.slots[k.idx].body ≠ none
  counted : ∀ k : NoticeKind, ∀ p, s.ns.slots[k.idx].body = some p → 1 ≤ p.count ∧ p.count ≤ 255 ∧
              s.ns.slots[k.idx].cls ≠ 3
  carried : ∀ k : NoticeKind, ∀ p c, s.ns.slots[k.idx].body = some p → p.carry = some c →
              p.sending = true ∧ 1 ≤ c.count ∧ c.count ≤ 255

end Sys2Proof.Machine
end

