-- ==== Sys2Proof/Certificates/Slice0/Obligations.lean ====
section
/-!
DEFINITION. The statements about the TDC-8 for the provers. Each docstring names the rules it formalises; what rests on
a choice of the model names its log entry.
-/

open Sys2Proof Sys2Proof.Machine

/-! ## The machine -/

/-- A step takes the command at the front of the queue and executes it with the rest left waiting (log 2). -/
def Obligations.StepTakesFrontCommand : Prop :=
  ∀ (c : Instr) (rest : List Instr) (s : State),
    step { s with pending := c :: rest } = exec c { s with pending := rest }

/-- The values right after the release of reset that the spec states: R17 and R18 (contexts, edit buffer), R28, R33, R34
(selection, switch part, install part, HOLD), R44 (every item of the Frame Tracker), R70 (staging), R76 (Tile Engine),
R97 (cadence), R104 and R86 (ports), R148 (trunk link), R157 (sessions), R176 (response slots and fill order), R179 and
R180 (notice classes, slots and pending list), R190, R193 and R201 (phase, address, no FULL reset pending), and R111 (no
operation in flight). -/
def Obligations.ReleaseValues : Prop :=
  let s := State.reset
  (∀ c : Fin 4, s.ms.contexts[c].status = .blank ∧ used s.ms.contexts[c].table = [] ∧
    s.ms.contexts[c].fill = ⟨0, 0, 0⟩) ∧
  s.ms.edit = none ∧ s.ms.selection = .none ∧ s.ms.switch = none ∧ s.ms.install = none ∧ s.ms.hold = false ∧
  (∀ t : Fin 8, ∀ k, k < 3072 → curveEntry s.cu.tables[t] k = 4 * (k % 1024) + (k % 1024) / 256) ∧
  s.cu.staging = .free ∧
  (s.ft.frame = none ∧ s.ft.lastLine = none ∧ s.ft.lastEnd = 0 ∧ s.ft.runs = 0 ∧
    s.ft.damage = ⟨false, false, false, false⟩ ∧ s.ft.lock = .noSignal ∧ s.ft.regular = 0 ∧ s.ft.lastOpen = none ∧
    s.ft.lastClose = none ∧ s.ft.measured = none ∧ s.ft.reference = none ∧ s.ft.lastNumber = 0 ∧ s.ft.opened = 0 ∧
    s.ft.damagedCount = 0 ∧ s.ft.signal = none ∧ s.ft.lineGap = none ∧ s.ft.acquisition = none ∧
    s.ft.holdover = none ∧ s.ft.loss = none) ∧
  s.te = none ∧
  (∀ p : Fin 8, s.ports[p].config = ⟨true, .dark, .solid, none⟩ ∧ s.ports[p].queue = [] ∧
    s.ports[p].transferring = false ∧ s.ports[p].stallTimer = none ∧ s.ports[p].stalled = false ∧
    s.ports[p].releasePending = false ∧ s.ports[p].gen = none ∧ s.ports[p].current = none ∧
    s.ports[p].last = none ∧ s.ports[p].genCount = 0) ∧
  s.cadence = 5 ∧ s.cadenceTimer = some (s.now + 16666) ∧
  (s.dn.up = false ∧ s.dn.linkTimer = none ∧ s.dn.buffer = [] ∧ s.dn.receiving = false ∧ s.holdOut = false ∧
    s.up.sending = none ∧ s.up.idleTimer = some (s.now + 200) ∧ s.up.idleDue = false ∧ s.up.turn = .toLocal) ∧
  (∀ i : Fin 4, s.sessions[i] = none) ∧ (∀ i : Fin 8, s.rq.slots[i] = .free) ∧ s.rq.order = [] ∧
  (∀ k : NoticeKind, s.ns.slots[k.idx].body = none) ∧ s.ns.list = [] ∧
  s.ns.slots.toList.map (fun x => x.cls.1) = [1, 2, 2, 1, 1, 2, 1, 1, 1, 0, 2, 0, 1, 1, 0, 0] ∧
  s.phase = .starting ∧ s.address = 0 ∧ s.fullReset = none ∧ s.rs.op = none

/-- Every invariant holds right after the release of reset. -/
def Obligations.ReleaseIsSafe : Prop :=
  StorageOk State.reset ∧ QueuesOk State.reset ∧ MapOk State.reset ∧ SessionsOk State.reset ∧
    ResponsesOk State.reset ∧ NoticesOk State.reset

/-- Every step keeps the canonical form of the banks and of the correction curves, and every curve entry in 0..4095
(R68, R106, R207). -/
def Obligations.StepKeepsStorage : Prop := ∀ s t : State, StorageOk s → step s = .next t → StorageOk t

/-- Every step keeps the port queues within eight lines and the pass-through buffer within four packets, and a transfer
in progress has its line (R90, R142). -/
def Obligations.StepKeepsQueues : Prop := ∀ s t : State, QueuesOk s → step s = .next t → QueuesOk t

/-- Every step keeps each context that is shown or waiting to be shown READY, and a context OPEN exactly while the edit
buffer is taken for it (R4, R21, R28, R34). -/
def Obligations.StepKeepsMap : Prop := ∀ s t : State, MapOk s → step s = .next t → MapOk t

/-- Every step keeps session keys unique and what is owned owned by an open session (R18, R70, R157). -/
def Obligations.StepKeepsSessions : Prop := ∀ s t : State, SessionsOk s → step s = .next t → SessionsOk t

/-- Every step keeps the fill order the list of the filled response slots, each once (R176). -/
def Obligations.StepKeepsResponses : Prop := ∀ s t : State, ResponsesOk s → step s = .next t → ResponsesOk t

/-- Every step keeps the pending list the list of the PENDING kinds, each once, with counts 1..255 and never class 3
(R180, R181). -/
def Obligations.StepKeepsNotices : Prop := ∀ s t : State, NoticesOk s → step s = .next t → NoticesOk t

/-- The command of a forward-lane packet is what a cabinet whose classification of it is that command decodes from the
packet's bytes (R136, R203). -/
def Obligations.ForwardPacketDecodesToItsCommand : Prop :=
  ∀ (dt : Nat) (address : Byte) (i : Instr) (bytes : List Byte),
    i.wf = true → forwardPacket i = some bytes →
    (match i with
      | .forwardPacketDropped d _ | .frameStart d _ _ _ | .line d _ _ _ _ | .frameEnd d _ _ | .idle d
      | .forwardUnknownKind d _ => d = dt
      | .controlNotAddressed _ kind c | .unknownRequest _ kind c => controlInstr dt address kind c = i
      | _ => ∀ k c, i.request = some (k, c) → controlInstr dt address (reqCode k) c = i) →
    decodeForward dt address bytes = i

/-! ## Power, RSTN and the hold in reset -/

/-- Power-on and RSTN low leave the part held in reset with every block at its reset values and no timer running; the
banks keep what the cut-off access left (R106, R198). The release gives the reset values with the address 0, the phase
STARTING, the cadence timer, the IDLE interval and the start-up load begun, banks, pins and time as they are (R198).
That the blocks hold their reset values with no timer running while held, after power-on as after RSTN, is log 41; that
the levels of the input pins stay through a reset is log 5; and the store's items before its load are log 7. -/
def Obligations.ResetPinAndRelease : Prop :=
  ∀ (dt : Nat) (cut : Mishap) (s : State),
    let rs := s.rs.cut cut
    let values (now : Nat) (bankA bankB : Cells Word) : State :=
      { State.reset with
          now := now, ports := s.ports.map fun p => Port.initial p.ready, cadenceTimer := some (now + 16666),
          rs := RecordStore.initial bankA bankB, up := Uplink.initial s.up.holdIn now, pending := s.pending }
    let v := values (s.now + dt) rs.bankA rs.bankB
    let held : State :=
      { v with held := true, cadenceTimer := none, rs := { v.rs with load := none },
               up := { v.up with idleTimer := none } }
    exec (.powerOn dt cut) s = .next held ∧ exec (.rstnLow dt cut) s = .next held ∧
    (s.held = true → exec (.releaseOfReset dt) s = .next (values (s.now + dt) s.rs.bankA s.rs.bankB))

/-- While the part is held in reset, every command but the reset pin, the release and the levels of the other pins
changes nothing but the time, which passes as the command says (R198). That nothing else changes meanwhile is log 41
(DEDUCED). A packet that reaches a lane at the very moment at which a FULL reset took effect is lost in the same way
(R202); that this moment is the one time that counts is log 43. -/
def Obligations.HeldInResetOnlyTimePasses : Prop :=
  ∀ (i : Instr) (s : State),
    let passed : Prop := exec i s = .next { s with now := s.now + i.elapsed, out := [] }
    (s.held = true →
      (match i with
       | .powerOn .. | .rstnLow .. | .releaseOfReset .. | .readyRises .. | .readyFalls .. | .holdInputRises ..
       | .holdInputFalls .. => False
       | _ => True) → passed) ∧
    (s.resetAt = some (s.now + i.elapsed) →
      (match i with
       | .returnReceptionBegins .. | .returnPacket .. | .returnIdle .. | .returnPacketDropped .. => True
       | _ => (forwardPacket i).isSome = true) → passed)

/-! ## The start-up load -/

/-- The end of the header reads (R108, R129): the only ACTIVE bank, or of two the newer by R108, with its generation;
with none, bank A erased and made ACTIVE with generation 1; on a verify failure STORE-FAULT, bank A active, no records,
append point 32,768 and the full mark set. That the generation is 1 then too is the model's choice (log 47), as R129
names none; that this STORE-FAULT has no key is log 32, the address of a failed erase, its lowest word not erased,
log 10, and what a failed erase leaves log 49. -/
def Obligations.StartupBankChoice : Prop :=
  ∀ (dt : Nat) (fault : Option Mishap) (l : Load) (s : State),
    s.held = false → s.rs.load = some l → l.step = .headers →
    let chosen (b : BankId) (g : Word) : State :=
      { s.elapse dt with
          rs := { s.rs with active := b, generation := g, load := some { l with step := .scan } } }
    let activeA : Prop := bankRead s.rs.bankA 0 = 0xC35A ∧ bankRead s.rs.bankA 2 = 0x00FF
    let activeB : Prop := bankRead s.rs.bankB 0 = 0xC35A ∧ bankRead s.rs.bankB 2 = 0x00FF
    let gA := bankRead s.rs.bankA 1
    let gB := bankRead s.rs.bankB 1
    (activeA → ¬activeB → exec (.startupBankChoice dt fault) s = .next (chosen .A gA)) ∧
    (¬activeA → activeB → exec (.startupBankChoice dt fault) s = .next (chosen .B gB)) ∧
    (activeA → activeB → 1 ≤ (gB - gA).toNat ∧ (gB - gA).toNat ≤ 32767 →
      exec (.startupBankChoice dt fault) s = .next (chosen .B gB)) ∧
    (activeA → activeB → ¬(1 ≤ (gB - gA).toNat ∧ (gB - gA).toNat ≤ 32767) →
      exec (.startupBankChoice dt fault) s = .next (chosen .A gA)) ∧
    (¬activeA → ¬activeB → fault = none →
      exec (.startupBankChoice dt fault) s = .next
        { s.elapse dt with
            rs := { s.rs with
                      bankA := [(0, 0xC35A), (1, 1), (2, 0x00FF)], active := .A, generation := 1, append := 8,
                      full := false, directory := Vector.replicate 13 none,
                      load := some { l with step := .scan } } }) ∧
    (∀ r f, ¬activeA → ¬activeB →
      s.rs.perform fault 0 [.erase .A, .program .A 0 0xC35A, .program .A 1 1, .state .A 2 0x00FF .ordinary] =
        (r, some f) →
      exec (.startupBankChoice dt fault) s = .next
        ({ s.elapse dt with
            rs := { r with
                      active := .A, generation := 1, append := 32768, full := true,
                      directory := Vector.replicate 13 none,
                      load := some { l with step := .scan, skipScan := true } } }.raise
          (.storeFault .writeFault f.bank f.addr none)))

/-- The scan (R130). One record by the state and length read: an ERASED state ends the scan with the append point there;
a WRITING or SUPERSEDED record that fits is passed; a VALID one of a known key becomes the key's entry, the one it
replaces is noted stale and a check-word mismatch bad; a VALID one of an unknown key is reported; and a record that does
not fit, or another state, ends the scan with the full mark set. The scan starts at word 8; its faults are raised in
order, and the keys found wait to be loaded in ascending address order; after a failed bank choice no scan is made (R129,
log 35). -/
def Obligations.StartupScanNotesTheRecords : Prop :=
  (∀ (b : BankId) (c : Cells Word) (n a : Nat) (sc : Scan), a < 32768 →
     let st := bankRead c a
     let len := (bankRead c (a + 2)).toNat
     let fits : Prop := 1 ≤ len ∧ len ≤ 3200 ∧ a + 4 + len ≤ 32768
     (st = 0xFFFF → Scan.run b c (n + 1) a sc = { sc with append := a }) ∧
     (st = 0x0FFF ∨ st = 0x0000 → fits → Scan.run b c (n + 1) a sc = Scan.run b c n (a + 4 + len) sc) ∧
     (st = 0x00FF → fits → keyOfWord (bankRead c (a + 1)) = none →
       Scan.run b c (n + 1) a sc =
         Scan.run b c n (a + 4 + len) { sc with faults := sc.faults ++ [.storeFault .badContent b a none] }) ∧
     (∀ k, st = 0x00FF → fits → keyOfWord (bankRead c (a + 1)) = some k →
       let bad := bankRead c (a + 3) != crcWords (recordBody c a len)
       Scan.run b c (n + 1) a sc =
         Scan.run b c n (a + 4 + len)
           { sc with
               directory := upd sc.directory k.idx (some ⟨a, len, bad⟩)
               stale := (match sc.directory[k.idx] with | some e => insertNat e.addr sc.stale | none => sc.stale)
               faults := (if bad then sc.faults ++ [.storeFault .checkFail b a (some k)] else sc.faults) }) ∧
     ((st = 0x0FFF ∨ st = 0x00FF ∨ st = 0x0000) → ¬fits →
       Scan.run b c (n + 1) a sc =
         { sc with append := 32768, full := true, faults := sc.faults ++ [.storeFault .scanEnded b a none] }) ∧
     (st ≠ 0xFFFF → st ≠ 0x0FFF → st ≠ 0x00FF → st ≠ 0x0000 →
       Scan.run b c (n + 1) a sc =
         { sc with append := 32768, full := true, faults := sc.faults ++ [.storeFault .scanEnded b a none] })) ∧
  (∀ (dt : Nat) (l : Load) (s : State), s.held = false → s.rs.load = some l → l.step = .scan →
     let start : Scan := ⟨8, false, Vector.replicate 13 none, [], []⟩
     let sc := Scan.run s.rs.active (s.rs.bank s.rs.active) maxRecords 8 start
     let r := { s.rs with append := sc.append, full := sc.full, directory := sc.directory }
     (l.skipScan = false →
       exec (.startupScan dt) s = .next
         (({ s.elapse dt with
               rs := { r with load := some { l with step := .records (r.liveByAddr.map Prod.fst),
                                                     stale := sc.stale } } } : State).raiseAll sc.faults)) ∧
     (l.skipScan = true →
       exec (.startupScan dt) s = .next
         { s.elapse dt with rs := { s.rs with load := some { l with step := .records [] } } }))

/-- The next key's live record is loaded (R131): a context image that passes the image check and validation makes the
context READY, another raises CONTEXT-LOAD-FAILED; table curves in form are taken directly, settings in form are
applied with their start selection kept, others raise STORE-FAULT; a record marked bad is never loaded. R131 names the
reason and the key of a STORE-FAULT; that its address is the record's is log 32. Settings are in form exactly when they
are 16 words that spell them as R207 says; that the repeat counts and contexts beyond the start selection's entries are
not examined is log 25. -/
def Obligations.StartupRecordLoad : Prop :=
  (∀ (dt : Nat) (l : Load) (k : RecKey) (todo : List RecKey) (e : DirEntry) (s : State),
    s.held = false → s.rs.load = some l → l.step = .records (k :: todo) → s.rs.directory[k.idx] = some e →
    let body := recordBody (s.rs.bank s.rs.active) e.addr e.len
    let next (f : Load → Load) : RecordStore := { s.rs with load := some { f l with step := .records todo } }
    let skipped : State := { s.elapse dt with rs := next id }
    (∀ c, k = .context c →
      (∀ f t, e.bad = false → imageCheck body = .inr (f, t) → validate t = .ok →
        exec (.startupRecordLoad dt) s = .next
          { skipped with ms := { s.ms with contexts := upd s.ms.contexts c ⟨.ready, t, f⟩ } }) ∧
      (∀ n, e.bad = false → imageCheck body = .inl n →
        exec (.startupRecordLoad dt) s = .next (skipped.raise (.contextLoadFailed c (.validation .range n)))) ∧
      (∀ f t r n, e.bad = false → imageCheck body = .inr (f, t) → validate t = .failed r n →
        exec (.startupRecordLoad dt) s = .next (skipped.raise (.contextLoadFailed c (.validation r n)))) ∧
      (e.bad = true →
        exec (.startupRecordLoad dt) s = .next (skipped.raise (.contextLoadFailed c .checkFail)))) ∧
    (∀ t, k = .table t →
      (∀ curves, e.bad = false → curvesOfBody body = some curves →
        exec (.startupRecordLoad dt) s = .next
          { s.elapse dt with
              cu := { s.cu with tables := upd s.cu.tables t curves },
              rs := next fun l => { l with tables := upd l.tables t true } }) ∧
      (e.bad = false → curvesOfBody body = none →
        exec (.startupRecordLoad dt) s = .next
          (skipped.raise (.storeFault .badContent s.rs.active e.addr (some (.table t))))) ∧
      (e.bad = true →
        exec (.startupRecordLoad dt) s = .next
          (skipped.raise (.storeFault .checkFail s.rs.active e.addr (some (.table t)))))) ∧
    (k = .settings →
      (∀ st, e.bad = false → settingsOfBody body = some st →
        exec (.startupRecordLoad dt) s = .next
          { s.elapse dt with
              ports := Vector.ofFn fun i : Fin 8 => { s.ports[i] with config := st.ports[i] },
              cadence := st.cadence,
              ns := NoticeKind.all.foldl (fun n k => n.setClass k st.classes[k.idx]) s.ns,
              rs := next fun l => { l with start := st.start } }) ∧
      (e.bad = false → settingsOfBody body = none →
        exec (.startupRecordLoad dt) s = .next
          (skipped.raise (.storeFault .badContent s.rs.active e.addr (some .settings)))) ∧
      (e.bad = true →
        exec (.startupRecordLoad dt) s = .next
          (skipped.raise (.storeFault .checkFail s.rs.active e.addr (some .settings)))))) ∧
  (∀ (ws : List Word) (st : Settings),
    let word (i : Nat) : Nat := (ws.getD i 0).toNat
    let entry (i : Nat) (e : SeqEntry) : Prop :=
      e.ctx.1 = word 15 / 4 ^ (7 - i) % 4 ∧
      e.count = (if i % 2 = 0 then word (11 + i / 2) / 256 else word (11 + i / 2) % 256)
    settingsOfBody ws = some st ↔
      ws.length = 16 ∧
      (∀ p : Fin 8, word p.1 =
        4096 * (if st.ports[p].enabled then 1 else 0) +
        256 * (match st.ports[p].loss with | .dark => 0 | .fill => 1 | .pattern => 2) +
        16 * (match st.ports[p].pattern with | .solid => 0 | .bars => 1 | .ramp => 2 | .grid => 3) +
        (match st.ports[p].forced with
         | none => 0 | some .solid => 1 | some .bars => 2 | some .ramp => 3 | some .grid => 4)) ∧
      st.cadence = word 8 % 16 ∧ word 8 / 16 % 16 = 0 ∧ word 8 / 8192 = 0 ∧
      (∀ k : Fin 16, st.classes[k].1 = word (9 + k.1 / 8) / 4 ^ (7 - k.1 % 8) % 4) ∧
      (match st.start with
       | none => word 8 / 256 % 4 = 0
       | some (.context c) => word 8 / 256 % 4 = 1 ∧ c.1 = word 15 / 16384
       | some (.sequence es) =>
         word 8 / 256 % 4 = 2 ∧ es.length = word 8 / 1024 % 8 + 1 ∧
           ∀ i e, es[i]? = some e → entry i e ∧ 1 ≤ e.count))

/-- The end of the load (R132, R133): with no stale record left to mark, STORE-NEARLY-FULL is raised when the full mark
is clear and fewer than 4,096 words are free, and the start selection is placed as a switch part without a not-before
frame, or CONTEXT-LOAD-FAILED names its first context that is not READY; then the load waits to be reported. One stale
record more is programmed SUPERSEDED first, or reports a verify failure and sets the full mark; that this STORE-FAULT has
no key is log 32. -/
def Obligations.StartupTidy : Prop :=
  ∀ (dt : Nat) (faults : List (Nat × Word)) (l : Load) (s : State),
    s.held = false → s.rs.load = some l → l.step = .records [] →
    let reported (t : State) : State :=
      { t with rs := { t.rs with load := some { l with step := .report } } }
    let nearlyFull (t : State) : State :=
      if t.rs.full = false ∧ 32768 - t.rs.append < 4096 then t.raise (.storeNearlyFull (32768 - t.rs.append) none)
      else t
    let startPlaced (t : State) : State :=
      match l.start with
      | none => t
      | some w =>
        match w.contexts.find? fun c : Fin 4 => !(t.ms.contexts[c].status == .ready) with
        | some c => t.raise (.contextLoadFailed c .startSelection)
        | none =>
          ({ t with ms := { t.ms with switch := some ⟨w, none, .sessionless⟩ } } : State).raiseIf
            (t.ms.switch.map fun o : SwitchPart => .switchSuperseded o.issuer .sessionless o.target.isSequence)
    let ended (t : State) : State := reported (startPlaced (nearlyFull t))
    exec (.startupTidy dt faults) s = .next (ended (l.stale.foldl (State.tidyOne faults) (s.elapse dt))) ∧
    (∀ a w, Memory.wf erased (s.rs.bank s.rs.active) = true →
      let m := (faults.find? fun f => f.1 == a).map fun f => f.2
      w = bankRead (s.rs.bank s.rs.active) a &&& m.getD 0 →
      let r := s.rs.setBank s.rs.active (cellWrite erased a w (s.rs.bank s.rs.active))
      (w = 0 → State.tidyOne faults s a = { s with rs := r }) ∧
      (w ≠ 0 → State.tidyOne faults s a =
        ({ s with rs := { r with full := true } } : State).raise (.storeFault .writeFault s.rs.active a none)))

/-- The load is reported complete (R190, R192): the phase becomes RUNNING and STARTUP-COMPLETE is raised with the active
bank, its generation, the READY contexts and the tables loaded. -/
def Obligations.StartupLoadCompletion : Prop :=
  ∀ (dt : Nat) (l : Load) (s : State), s.held = false → s.rs.load = some l → l.step = .report →
    exec (.startupLoadCompletion dt) s = .next
      (({ s.elapse dt with phase := .running, rs := { s.rs with load := none } } : State).raise
        (.startupComplete s.rs.active s.rs.generation (s.ms.contexts.map fun c => c.status == .ready) l.tables))

/-! ## Packets of the forward lane -/

/-- What every intact packet that opens no frame does on arrival (R45, R60), and the packets that do no more (R136, R137,
R139): the signal timer restarts at 100 ms; taken in NO-SIGNAL it also moves the lock state to ACQUIRING with regular
count 0 and the acquisition timer at 1 s, and FRAME-LOCK-CHANGED is raised (R64). IDLE, an unknown kind and CONTROL not
for this cabinet are sent on while the downstream link is UP and discarded while it is DOWN. That the command of a CONTROL
not for this cabinet is taken at its word is log 46. -/
def Obligations.PassingPacketsRestartTheSignal : Prop :=
  (∀ s : State,
    (s.ft.lock ≠ .noSignal → s.arrive = { s with ft := { s.ft with signal := some (s.now + 100000) } }) ∧
    (s.ft.lock = .noSignal →
      s.arrive =
        ({ s with ft := { s.ft with
                            lock := .acquiring, regular := 0, acquisition := some (s.now + 1000000),
                            holdover := none, loss := none,
                            signal := some (s.now + 100000) } } : State).raise
          (.lockChanged .noSignal .acquiring s.ft.lastNumber))) ∧
  (∀ (dt : Nat) (bytes : List Byte) (kind : Byte) (c : Ctl) (s : State), s.Receives dt →
    let passed (p : List Byte) : State :=
      { (s.elapse dt) with out := if s.dn.up then [.forward p] else [] }.arrive
    exec (.idle dt) s = .next (passed (packet 0 [])) ∧
    exec (.forwardUnknownKind dt bytes) s = .next (passed bytes) ∧
    exec (.controlNotAddressed dt kind c) s = .next (passed (controlPacket kind c)))

/-- A packet that is not intact raises TRUNK-INTEGRITY with its lane, the reason and the kind as read, and does nothing
else (R135, R141, R203); on the return lane its reception ends (R143). The reason is CHECK-WORD where the check word does
not match, else LENGTH where a length condition of R203 fails: the length field is the number of bytes received, that
number lies in 5..4,096, and it is the length of the packet's kind. That a packet of fewer than two bytes fails its check
word, and that the kind as read of one without bytes is 0, are the model's choices (log 28); that a return-lane packet
whose reception is not in progress is lost is log 3. -/
def Obligations.BrokenPacketsAreDropped : Prop :=
  ∀ (dt : Nat) (bytes : List Byte) (s : State), s.Receives dt →
    (∀ r, dropReason .forward bytes = some r →
      exec (.forwardPacketDropped dt bytes) s = .next
        ((s.elapse dt).raise (.trunkIntegrity .forward r (byteAt bytes 0)))) ∧
    (s.dn.receiving = false → exec (.returnPacketDropped dt bytes) s = .next (s.elapse dt)) ∧
    (∀ r, s.dn.receiving = true → dropReason .return bytes = some r →
      let dn := { s.dn with receiving := false }
      let timer := if s.dn.up = true ∧ s.holdOut = true ∧ dn.holdOut = false then some (s.now + dt + 2000)
                   else s.dn.linkTimer
      exec (.returnPacketDropped dt bytes) s = .next
        (({ s.elapse dt with dn := { dn with linkTimer := timer } } : State).raise
          (.trunkIntegrity .return r (byteAt bytes 0)))) ∧
    (∀ lane : Lane,
      let body := bytes.take (bytes.length - 2)
      let matched : Prop := 2 ≤ bytes.length ∧ bytes = body ++ wordBytes (crc16 body)
      let at1 (i : Nat) : Nat := (bytes.getD i 0).toNat
      let ofKind : Prop :=
        match lane, at1 0 with
        | .forward, 0x00 | .return, 0x10 => bytes.length = 5
        | .forward, 0x01 => bytes.length = 11
        | .forward, 0x02 => bytes.length = 13 + 4 * (at1 9 * 256 + at1 10)
        | .forward, 0x03 => bytes.length = 9
        | .forward, 0x04 => at1 7 ≤ 60 ∧ bytes.length = 10 + at1 7
        | .return, 0x11 => at1 8 ≤ 60 ∧ bytes.length = 11 + at1 8
        | .return, 0x12 => bytes.length = 17
        | _, _ => True
      let lengths : Prop := at1 1 * 256 + at1 2 = bytes.length ∧ 5 ≤ bytes.length ∧ bytes.length ≤ 4096 ∧ ofKind
      (¬matched → dropReason lane bytes = some .checkWord) ∧
      (matched → ¬lengths → dropReason lane bytes = some .length) ∧
      (matched → lengths → dropReason lane bytes = none))

/-- A FRAME-START by its geometry. A good one opens a frame (R46, R57): the frame, no line yet, no runs, no damage, the
period measured, the number and the open counted, the line-gap timer at 25 ms, after closing an open one; and it touches
no session, response, record, link or address. A bad one (R47) closes an open frame TRUNCATED, raises FRAME-DAMAGED with
BAD-GEOMETRY, counts it, and is no open: period, last open, frames opened and the map are as they were. Taken in
NO-SIGNAL it also changes the lock state, and that FRAME-LOCK-CHANGED is raised before this FRAME-DAMAGED is log 31. -/
def Obligations.FrameStartByItsGeometry : Prop :=
  ∀ (dt : Nat) (f w h : Word) (s : State), s.Receives dt →
    let good : Prop := 1 ≤ w.toNat ∧ w.toNat ≤ 8192 ∧ 1 ≤ h.toNat ∧ h.toNat ≤ 8192
    (good → ∃ t, exec (.frameStart dt f w h) s = .next t ∧
      t.ft.frame = some ⟨f, w.toNat, h.toNat⟩ ∧ t.ft.lastLine = none ∧ t.ft.lastEnd = 0 ∧ t.ft.runs = 0 ∧
      t.ft.damage = ⟨false, false, false, false⟩ ∧ t.ft.lastNumber = f ∧ t.ft.opened = s.ft.opened + 1 ∧
      t.ft.lastOpen = some (s.now + dt) ∧ t.ft.lineGap = some (s.now + dt + 25000) ∧
      t.ft.signal = some (s.now + dt + 100000) ∧
      t.ft.measured = (match s.ft.lastOpen with
        | some t0 => some (min (s.now + dt - t0) 2000000)
        | none => s.ft.measured) ∧
      t.ft.damagedCount = (if s.ft.frame.isSome then s.ft.damagedCount + 1 else s.ft.damagedCount) ∧
      t.now = s.now + dt ∧ t.held = s.held ∧ t.resetAt = s.resetAt ∧ t.phase = s.phase ∧ t.address = s.address ∧
      t.fullReset = s.fullReset ∧ t.sessions = s.sessions ∧ t.rq = s.rq ∧ t.rs = s.rs ∧ t.up = s.up ∧
      t.dn = s.dn ∧ t.cadence = s.cadence ∧ t.cadenceTimer = s.cadenceTimer ∧ t.pending = s.pending) ∧
    (¬good → ∃ u t : State, exec (.frameStart dt f w h) s = .next t ∧
      t = ({ u with ft := { u.ft with damagedCount := u.ft.damagedCount + 1 } } : State).raise (.badGeometry f) ∧
      u = ((s.elapse dt).forward (frameStartPacket f w h)).arrive.closeFrame ⟨false, false, false, true⟩ ∧
      t.ft.frame = none ∧ t.ft.opened = s.ft.opened ∧ t.ft.lastOpen = s.ft.lastOpen ∧
      t.ft.measured = s.ft.measured ∧ t.ft.lastNumber = s.ft.lastNumber ∧
      t.ft.damagedCount = s.ft.damagedCount + (if s.ft.frame.isSome then 2 else 1) ∧
      t.ms = s.ms ∧ t.cu = s.cu ∧ t.sessions = s.sessions ∧ t.rq = s.rq ∧ t.rs = s.rs)

/-- The frame-open event (R46, R48, R64): the open frame closed, the lock judged and the frame opened, it reaches the Map
Store, the Tile Engine and the ports, and a change of lock state is reported last. The frame map is the active context's
tiles and fill colour, or nothing while STARTING (R77), with GEOMETRY-MISMATCH naming the lowest slot beyond the frame
(R78). A port retires its last record, its current one becomes the last, and policy output ends (R94, R100); that this also discards waiting
lines of a policy frame that has placed its last line is log 15, and the order of the ports log 16. -/
def Obligations.FrameOpenReachesEveryBlock : Prop :=
  (∀ (dt : Nat) (f w h : Word) (s : State), s.Receives dt →
    1 ≤ w.toNat → w.toNat ≤ 8192 → 1 ≤ h.toNat → h.toNat ≤ 8192 →
    let seen : State := { (s.elapse dt).forward (frameStartPacket f w h) with ft := s.ft.packet (s.now + dt) }
    let closed := seen.closeFrame ⟨false, false, false, true⟩
    let opened : State := { closed with ft := closed.ft.openFrame (s.now + dt) f w.toNat h.toNat }
    let shown := ((opened.applyPending f).engineOpen f w.toNat h.toNat).atPorts (Port.open f)
    exec (.frameStart dt f w h) s = .next
      (if opened.ft.lock = s.ft.lock then shown else shown.raise (.lockChanged s.ft.lock opened.ft.lock f)) ∧
    ((s.ft.lock ≠ .noSignal → closed.ft.lock = s.ft.lock) ∧ (s.ft.lock = .noSignal → closed.ft.lock = .acquiring)) ∧
    opened.ft.lock = (closed.ft.lockOpen (s.now + dt)).lock) ∧
  (∀ (f : Word) (w h : Nat) (s : State),
    let shown : List (Nat × Tile) × Rgb :=
      match s.phase, s.ms.selection with
      | .starting, _ | .running, .none => ([], ⟨0, 0, 0⟩)
      | .running, .context c => (used s.ms.contexts[c].table, s.ms.contexts[c].fill)
      | .running, .sequence es i _ =>
        match es[i]? with
        | some e => (used s.ms.contexts[e.ctx].table, s.ms.contexts[e.ctx].fill)
        | none => ([], ⟨0, 0, 0⟩)
    let m : FrameMap :=
      { number := f, width := w, height := h, tiles := shown.1, fill := shown.2,
        enabled := s.ports.map fun p => p.config.enabled }
    let t : State := { s with te := some ⟨m, 0, []⟩ }
    let beyond (e : Nat × Tile) : Prop := w < e.2.x + e.2.w ∨ h < e.2.y + e.2.h
    ((∀ e ∈ shown.1, ¬beyond e) → s.engineOpen f w h = t) ∧
    (∀ as e bs, shown.1 = as ++ e :: bs → (∀ a ∈ as, ¬beyond a) → beyond e →
      s.engineOpen f w h = t.raise (.geometryMismatch f e.1))) ∧
  (∀ (f : Word) (p : Port),
    let waiting := if p.transferring then p.queue.drop 1 else p.queue
    let stays (l : PortLine) : Bool := match l.source with | .trunk _ .last | .policy => false | _ => true
    let kept := (if p.transferring then p.queue.take 1 else []) ++ waiting.filter stays
    let shifted (l : PortLine) : PortLine :=
      match l.source with
      | .trunk g .current => { l with source := .trunk g .last }
      | .trunk g .last => { l with source := .trunk g .retired }
      | _ => l
    Port.open f p =
      { p with queue := kept.map shifted, gen := p.gen.filter fun g => !g.policy,
               stalled := if kept = [] ∧ p.queue ≠ [] then false else p.stalled,
               current := some ⟨f, 0, 0, 0⟩, last := p.current })

/-- The lock state's change at a frame open (R59, R61 to R63, R65), by the state before, the regular count and whether
the open is regular. -/
def Obligations.LockAtFrameOpen : Prop :=
  ∀ (now : Nat) (t : Tracker),
    let acquiring (n : Nat) : Tracker :=
      { t with lock := .acquiring, regular := n, acquisition := some (now + 1000000), holdover := none, loss := none }
    let locked (p : Nat) : Tracker :=
      { t with lock := .locked, regular := 0, acquisition := none, loss := none, reference := some p,
               holdover := some (now + p + p / 8) }
    let regular (p : Nat) : Prop :=
      ∃ t0 m, t.lastOpen = some t0 ∧ p = min (now - t0) 2000000 ∧ t.lastClose = some .complete ∧
        1000 ≤ p ∧ p ≤ 1000000 ∧ t.measured = some m ∧ ((p - m) + (m - p)) * 64 ≤ m
    (∀ p, regular p → t.lock = .acquiring → t.regular = 0 → t.lockOpen now = acquiring 1) ∧
    (∀ p, regular p → t.lock = .acquiring → t.regular = 1 → t.lockOpen now = locked p) ∧
    (∀ p, regular p → t.lock = .locked → t.lockOpen now = locked p) ∧
    ((∀ p, ¬regular p) → t.lock = .acquiring ∨ t.lock = .locked → t.lockOpen now = acquiring 0) ∧
    (t.lock = .holdover ∨ t.lock = .lost → t.lockOpen now = acquiring 0)

/-- The pending change set at a frame open (R36 to R40): with HOLD set nothing is applied; with HOLD clear the install
part gives its table the staging content and frees it, and a switch part whose not-before frame is reached becomes the
selection; a SEQUENCE advances at every open without a switch. CHANGE-APPLIED is raised exactly when a part was
applied. -/
def Obligations.PendingChangesAtFrameOpen : Prop :=
  ∀ (f : Word) (s : State),
    let advanced : Selection :=
      match s.ms.selection with
      | .sequence es i r =>
        if r ≤ 1 then
          let j := if i + 1 < es.length then i + 1 else 0
          .sequence es j ((es[j]?.map SeqEntry.count).getD 0)
        else .sequence es i (r - 1)
      | sel => sel
    let due (w : SwitchPart) : Prop := ∀ n, w.notBefore = some n → (f - n).toNat ≤ 32767
    let idle : State := { s with ms := { s.ms with selection := advanced } }
    (s.ms.hold = true → s.applyPending f = idle) ∧
    (s.ms.hold = false → s.ms.install = none → (∀ w, s.ms.switch = some w → ¬due w) → s.applyPending f = idle) ∧
    (∀ w, s.ms.hold = false → s.ms.install = none → s.ms.switch = some w → due w →
      s.applyPending f =
        ({ s with ms := { s.ms with selection := w.target.selection, switch := none } } : State).raise
          (.changeApplied f w.target.firstContext none)) ∧
    (∀ t u curves, s.ms.hold = false → s.ms.install = some t → s.cu.staging = .held u curves →
      let cu : CorrectionUnit := ⟨upd s.cu.tables t curves, .free⟩
      ((∀ w, s.ms.switch = some w → ¬due w) →
        s.applyPending f =
          ({ s with ms := { s.ms with selection := advanced, install := none }, cu := cu } : State).raise
            (.changeApplied f none (some t))) ∧
      (∀ w, s.ms.switch = some w → due w →
        s.applyPending f =
          ({ s with ms := { s.ms with selection := w.target.selection, switch := none, install := none },
                    cu := cu } : State).raise (.changeApplied f w.target.firstContext (some t))))

/-- A switch that is applied becomes the active selection (R38): CONTEXT c, or the SEQUENCE of the part's list at index
0 with the repeat count of entry 0; the switch part is removed and the former selection discarded whole. -/
def Obligations.SwitchBecomesTheSelection : Prop :=
  ∀ (f : Word) (w : SwitchPart) (s : State), s.ms.hold = false → s.ms.switch = some w →
    (w.notBefore = none ∨ ∃ n, w.notBefore = some n ∧ (f - n).toNat ≤ 32767) →
    (s.applyPending f).ms.switch = none ∧
    (∀ c, w.target = .context c → (s.applyPending f).ms.selection = .context c) ∧
    (∀ e es, w.target = .sequence (e :: es) →
      (s.applyPending f).ms.selection = .sequence (e :: es) 0 e.count)

/-! ## Runs, tile rows and port lines -/

/-- A LINE (R49 to R52): outside the current frame it only passes; in it, it restarts the line-gap timer at 25 ms, is
counted, and is discarded with reason RANGE, else with reason ORDER, else handed to the Tile Engine, after which it is
the last line. -/
def Obligations.RunsAreCheckedInOrder : Prop :=
  ∀ (dt : Nat) (f y x0 : Word) (px : List PixelWord) (s : State), s.Receives dt →
    let a := ((s.elapse dt).forward (linePacket f y x0 px)).arrive
    let n := px.length
    ((∀ o, s.ft.frame = some o → o.number ≠ f) → exec (.line dt f y x0 px) s = .next a) ∧
    (∀ o, s.ft.frame = some o → o.number = f →
      let counted : Tracker := { a.ft with lineGap := some (s.now + dt + 25000), runs := min 65535 (s.ft.runs + 1) }
      let range : Prop := n < 1 ∨ 512 < n ∨ o.height ≤ y.toNat ∨ o.width < x0.toNat + n
      let order : Prop := ∃ l, s.ft.lastLine = some l ∧ (y.toNat < l ∨ (y.toNat = l ∧ x0.toNat < s.ft.lastEnd))
      (range → exec (.line dt f y x0 px) s = .next
        { a with ft := { counted with damage := { s.ft.damage with range := true } } }) ∧
      (¬range → order → exec (.line dt f y x0 px) s = .next
        { a with ft := { counted with damage := { s.ft.damage with order := true } } }) ∧
      (¬range → ¬order →
        let t := ({ a with ft := counted } : State).engineRun y.toNat x0.toNat px
        exec (.line dt f y x0 px) s = .next
          { t with ft := { counted with lastLine := some y.toNat, lastEnd := x0.toNat + n } }))

/-- An accepted run at the Tile Engine (R79 to R81): the raster lines above it complete first, each once and in ascending
order, the line at the front with what it received and each later one with nothing (in what order a line reaches the
ports is log 16); then every tile of an enabled port that covers the line receives, at each column whose source column
lies in the run, the pixel corrected by the tile's table and brightness; every other column keeps what it had, which is
nothing on a new line. -/
def Obligations.AcceptedRunFillsTileColumns : Prop :=
  ∀ (y x0 : Nat) (px : List PixelWord) (k : Work) (s : State), s.te = some k → (k.map.tiles.map Prod.fst).Nodup →
    let before := if k.front < y then [] else k.rows
    ∃ k', s.engineRun y x0 px =
        { s.linesComplete k.map k.rows k.front (y - k.front) with te := some k' } ∧
      k'.map = k.map ∧ k'.front = y ∧
      ∀ e ∈ k.map.tiles,
        let takes : Prop := k.map.enabled[e.2.port] = true ∧ e.2.y ≤ y ∧ y < e.2.y + e.2.h
        (¬takes → colsOf k'.rows e = colsOf before e) ∧
        (takes → ∀ i v, i < e.2.w → (colsOf before e)[i]? = some v →
          let col := if e.2.mirrorH then e.2.x + e.2.w - 1 - i else e.2.x + i
          (col < x0 ∨ x0 + px.length ≤ col → (colsOf k'.rows e)[i]? = some v) ∧
          (∀ p, x0 ≤ col → px[col - x0]? = some p →
            let out (ch : Nat) : Nat :=
              curveEntry s.cu.tables[e.2.table] (1024 * ch + p.toNat / 2 ^ (20 - 10 * ch) % 1024) *
                (e.2.bright + 1) / 256
            (colsOf k'.rows e)[i]? = some (some ⟨out 0, out 1, out 2⟩)))

/-- The port line of a raster line (R7, R82 to R85) and its port (R91). There is none for a port outside the enabled set
or without a covering tile; else it holds exactly one row for each covering tile of the port, in chain order, each with
its mirrored row index, FULL, PATCHED or FILLED by what was received, and the fill colour at the columns not received;
where nothing was received every row is FILLED with the fill colour throughout. A port that is disabled, forced or has a
release pending discards it and counts it dropped; one with eight lines queued does so and raises PORT-OVERRUN; another
queues it at the tail and counts it queued. Then the port starts what it can (R90). -/
def Obligations.PortLinesAreFormedAndHanded : Prop :=
  (∀ (m : FrameMap) (rows : List RowProgress) (y : Nat) (p : Fin 8),
    let covers (e : Nat × Tile) : Prop := e.2.port = p ∧ e.2.y ≤ y ∧ y < e.2.y + e.2.h
    ((m.enabled[p] = false ∨ ∀ e ∈ m.tiles, ¬covers e) → portLine m rows y p = none) ∧
    (m.enabled[p] = true → (∃ e ∈ m.tiles, covers e) →
      ∃ (es : List (Nat × Tile)) (l : PortLine),
        portLine m rows y p = some l ∧ l.source = .trunk m.number .current ∧ l.y = y ∧
        es.Perm (m.tiles.filter fun e => decide (covers e)) ∧
        es.Pairwise (fun a b : Nat × Tile => a.2.pos ≤ b.2.pos) ∧
        l.rows = es.map fun e : Nat × Tile =>
          { slot := e.1, pos := e.2.pos.1,
            index := if e.2.mirrorV then e.2.h - 1 - (y - e.2.y) else y - e.2.y,
            kind := if (colsOf rows e).all Option.isSome then .full
                    else if (colsOf rows e).any Option.isSome then .patched else .filled,
            pixels := (colsOf rows e).map fun c => c.getD m.fill }) ∧
    (∀ l, (∀ e ∈ m.tiles, 1 ≤ e.2.w) → portLine m [] y p = some l →
      ∀ r ∈ l.rows, r.kind = .filled ∧ ∃ e ∈ m.tiles, r.pixels = List.replicate e.2.w m.fill)) ∧
  (∀ (i : Fin 8) (f : Word) (l : PortLine) (c : Tally) (s : State),
    l.source = .trunk f .current → s.ports[i].current = some c →
    let p := s.ports[i]
    let refuses : Prop := p.config.enabled = false ∨ p.config.forced ≠ none ∨ p.releasePending = true
    let dropped : Port := { p with current := some { c with dropped := c.dropped + l.rows.length } }
    (refuses → s.handLine i f l = s.setPort i dropped) ∧
    (¬refuses → 8 ≤ p.queue.length → s.handLine i f l = (s.raise (.portOverrun i f l.y)).setPort i dropped) ∧
    (¬refuses → p.queue.length < 8 →
      s.handLine i f l = s.setPort i
        { p with queue := p.queue ++ [l], current := some { c with queued := c.queued + l.rows.length } }))

/-! ## Closing frames -/

/-- The close of a frame (R55): COMPLETE with no damage reason, else DAMAGED, counted and reported by FRAME-DAMAGED; the
Tile Engine then completes its remaining rows and is idle, pending releases end, and the frame state is BLANKING with the
line-gap timer stopped. In BLANKING nothing happens. At the close the line at the front completes with what it received,
or with nothing when the reasons include TRUNCATED, and each later line with nothing, once and in ascending order, through
the last line that a tile of the map covers (R83); the order of the ports within a line is log 16. -/
def Obligations.FrameCloseFollowsItsSteps : Prop :=
  (∀ (more : Damage) (s : State),
    (s.ft.frame = none → s.closeFrame more = s) ∧
    (∀ o, s.ft.frame = some o →
      let d : Damage := ⟨s.ft.damage.range || more.range, s.ft.damage.order || more.order,
        s.ft.damage.lostRuns || more.lostRuns, s.ft.damage.truncated || more.truncated⟩
      let whole : Tracker := { s.ft with damage := d, lastClose := some .complete }
      let hurt : Tracker :=
        { s.ft with damage := d, lastClose := some .damaged, damagedCount := s.ft.damagedCount + 1 }
      let judged : State :=
        if d = ⟨false, false, false, false⟩ then { s with ft := whole }
        else ({ s with ft := hurt } : State).raise (.frameDamaged o.number d)
      let ported := (judged.engineClose d.truncated).portsClose
      s.closeFrame more = { ported with ft := { judged.ft with frame := none, lineGap := none } } ∧
      ported.te = none ∧ (∀ p : Fin 8, ported.ports[p].releasePending = false) ∧
      ported.ms = s.ms ∧ ported.cu = s.cu ∧ ported.sessions = s.sessions ∧ ported.rq = s.rq ∧ ported.rs = s.rs ∧
      ported.up = s.up ∧ ported.dn = s.dn ∧ ported.now = s.now ∧ ported.phase = s.phase ∧
      ported.address = s.address ∧ ported.cadence = s.cadence ∧ ported.cadenceTimer = s.cadenceTimer)) ∧
  (∀ (truncated : Bool) (k : Work) (bottom : Nat) (s : State), s.te = some k →
    (∀ e ∈ k.map.tiles, e.2.y + e.2.h ≤ bottom) → (bottom = 0 ∨ ∃ e ∈ k.map.tiles, e.2.y + e.2.h = bottom) →
    s.engineClose truncated =
      { s.linesComplete k.map (if truncated then [] else k.rows) k.front (bottom - k.front) with te := none }) ∧
  (∀ (truncated : Bool) (s : State), s.te = none → s.engineClose truncated = s)

/-- What closes a frame besides a FRAME-START (R53, R54, R56, R60): a FRAME-END of the current frame, with LOST-RUNS when
its count differs; the line-gap timer, with TRUNCATED; the signal timer, which makes the lock state NO-SIGNAL with no
timer running, closes with TRUNCATED, and reports the change last. A FRAME-END of another frame only passes. -/
def Obligations.FramesEndByCountGapOrSignal : Prop :=
  ∀ (dt : Nat) (f n : Word) (s : State), s.held = false →
    let received : Prop := s.resetAt ≠ some (s.now + dt)
    let a := ((s.elapse dt).forward (frameEndPacket f n)).arrive
    let late (t0 : Nat) : State := { s.elapse dt with now := max (s.now + dt) t0 }
    (received → (∀ o, s.ft.frame = some o → o.number ≠ f) → exec (.frameEnd dt f n) s = .next a) ∧
    (∀ o, received → s.ft.frame = some o → o.number = f →
      exec (.frameEnd dt f n) s = .next (a.closeFrame ⟨false, false, decide (n.toNat ≠ s.ft.runs), false⟩)) ∧
    (∀ t0, s.ft.lineGap = some t0 →
      exec (.lineGapTimerExpiry dt) s = .next
        (({ late t0 with ft := { s.ft with lineGap := none } } : State).closeFrame ⟨false, false, false, true⟩)) ∧
    (∀ t0, s.ft.signal = some t0 → s.ft.lock ≠ .noSignal →
      let ft : Tracker := { s.ft with lock := .noSignal, regular := 0, signal := none, acquisition := none,
                                      holdover := none, loss := none }
      exec (.signalTimerExpiry dt) s = .next
        ((({ late t0 with ft := ft } : State).closeFrame ⟨false, false, false, true⟩).raise
          (.lockChanged s.ft.lock .noSignal s.ft.lastNumber)))

/-- The lock timers' expiries (R61 to R64): ACQUIRING becomes LOST; LOCKED becomes HOLDOVER with the loss timer at four
reference periods; HOLDOVER becomes LOST. FRAME-LOCK-CHANGED is raised and nothing else changes: an open frame and the
reference period stand. -/
def Obligations.LockTimersExpire : Prop :=
  ∀ (dt t0 : Nat) (s : State), s.held = false →
    let now := max (s.now + dt) t0
    let become (lock : LockState) (loss : Option Nat) : State :=
      ({ s.elapse dt with
          now := now,
          ft := { s.ft with lock := lock, regular := 0, acquisition := none, holdover := none, loss := loss } } :
        State).raise (.lockChanged s.ft.lock lock s.ft.lastNumber)
    (s.ft.lock = .acquiring → s.ft.acquisition = some t0 →
      exec (.acquisitionTimerExpiry dt) s = .next (become .lost none)) ∧
    (∀ r, s.ft.lock = .locked → s.ft.holdover = some t0 → s.ft.reference = some r →
      exec (.holdoverDeadlineExpiry dt) s = .next (become .holdover (some (now + 4 * r)))) ∧
    (s.ft.lock = .holdover → s.ft.loss = some t0 → exec (.lossTimerExpiry dt) s = .next (become .lost none))

/-! ## Requests: dispatch and sessions -/

/-- A request of a session by its sequence number (R159): the next number of a READY session is executed, which the
statements of each kind say; the last one gets the cached status and results again, under its own kind as received (R153,
R177), and the lease restarts; a WAITING session answers IN-PROGRESS and BUSY; any other number is OUT-OF-SEQUENCE; and a
key no slot holds is NO-SESSION. -/
def Obligations.SequenceNumbersDecide : Prop :=
  ∀ (dt : Nat) (kind : ReqKind) (c : Ctl) (rq : Fin 8) (s : State),
    kind ≠ .openSession → Addressed dt c s rq → s.phase = .running → c.key ≠ 0 →
    let ask := exec (requestInstr dt c kind) s
    let reply (st : Status) (res : List Byte) : State :=
      (s.received dt (reqCode kind) c rq).answered (reqCode kind) c rq st res
    (s.findSession c.key = none → ask = .next (reply .noSession [])) ∧
    (∀ i d, s.findSession c.key = some (i, d) →
      (c.seq ≠ d.last → c.seq ≠ d.last + 1 → ask = .next (reply .outOfSequence [])) ∧
      (∀ e cache, d.state = .ready e cache → c.seq = d.last →
        ask = .next
          { reply cache.status cache.results with
              sessions := upd s.sessions i
                (some { d with state := .ready (s.now + dt + 10000 * 2 ^ d.lease) cache }) }) ∧
      (∀ h k q r, d.state = .waiting h k q r →
        (c.seq = d.last → ask = .next (reply .inProgress [])) ∧
        (c.seq = d.last + 1 → ask = .next (reply .busy []))))

/-- What decides an addressed request before its session (R152, R153, R156, R201): without a free response slot, or
while a FULL reset is pending, it is dropped; an unknown kind is UNKNOWN-REQUEST; in STARTING every kind but READ-STATUS
is STARTING; and a kind that needs a session is NO-SESSION under key 0. That a request that is dropped still does what
every intact packet does on arrival is log 42. -/
def Obligations.RequestsRefusedBeforeExecution : Prop :=
  ∀ (dt : Nat) (kind : ReqKind) (code : Byte) (c : Ctl) (s : State),
    let ask := exec (requestInstr dt c kind) s
    let unknown := exec (.unknownRequest dt code c) s
    (s.Receives dt → c.dest = s.address → c.dest ≠ 0 → c.dest ≠ 255 →
      s.fullReset ≠ none ∨ (∀ i : Fin 8, s.rq.slots[i] ≠ .free) →
      ask = .next (s.elapse dt).arrive ∧ unknown = .next (s.elapse dt).arrive) ∧
    (∀ rq, Addressed dt c s rq →
      let answered (code : Byte) (st : Status) : State := (s.received dt code c rq).answered code c rq st []
      unknown = .next (answered code .unknownRequest) ∧
      (s.phase = .starting → kind ≠ .readStatus → ask = .next (answered (reqCode kind) .starting)) ∧
      (s.phase = .running → c.key = 0 →
        kind ∉ ([.readStatus, .readTile, .readPort, .readStoreStatus, .openSession, .enumerate, .selectContext,
                 .selectSequence, .cancelSelect, .hold, .release, .forcePattern, .setCadence, .reset] : List ReqKind) →
        ask = .next (answered (reqCode kind) .noSession)))

/-- The tests of the owning blocks that come first (R20, R72, R73, R154): an edit request of a session that does not own
the edit buffer, and END-TABLE and ABANDON-TABLE of one that does not own the staging area, are NOT-OWNER; then
operands missing, in excess or out of range are BAD-OPERAND. Neither changes anything in the owning block; both count
as executed. That END-TABLE and ABANDON-TABLE test ownership before their operands is log 27, and that a malformed RESET
of a session counts as executed is log 38. -/
def Obligations.OwnersAndOperandsAreTested : Prop :=
  ∀ (dt : Nat) (kind : ReqKind) (c : Ctl) (rq : Fin 8) (i : Fin 4) (d : Session) (s : State), InTurn dt c s rq i d →
    let edits : Prop :=
      kind ∈ ([.setTile, .clearTile, .setFill, .checkEdit, .closeEdit, .abandonEdit] : List ReqKind)
    let stages : Prop := kind ∈ ([.endTable, .abandonTable] : List ReqKind)
    let editor : Prop := ∃ e, s.ms.edit = some e ∧ e.owner = c.key
    let stager : Prop := ∃ t curves, s.cu.staging = .owned c.key t curves
    let refused (st : Status) : Prop :=
      AnsweredInSession kind (requestInstr dt c kind) dt c s rq i d st (fun _ => []) id
    ((edits ∧ ¬editor) ∨ (stages ∧ ¬stager) → refused .notOwner) ∧
    ((edits → editor) → (stages → stager) → kind.malformed c.ops = true → refused .badOperand)

/-- OPEN-SESSION (R158): key 0, a lease code above 15, and a field missing or in excess are BAD-OPERAND; a key already
open gets its OPEN-SESSION's cached response again when the packet is that one resent, else IN-USE; without a FREE slot
it is NO-SESSION; otherwise the lowest FREE slot becomes READY under the key with the packet's number as last, no cursor,
the full lease, and the response cached. -/
def Obligations.OpenSessionTakesTheLowestFreeSlot : Prop :=
  ∀ (dt : Nat) (c : Ctl) (rq : Fin 8) (s : State), Addressed dt c s rq → s.phase = .running →
    let code := reqCode .openSession
    let s0 := s.received dt code c rq
    let ask := exec (.openSession dt c) s
    (c.ops.length ≠ 2 ∨ (∃ b, c.ops = [0, b]) ∨ (∃ k b, c.ops = [k, b] ∧ 16 ≤ b.toNat) →
      ask = .next (s0.answered code c rq .badOperand [])) ∧
    (∀ (k : Byte) (l : Fin 16), k ≠ 0 → c.ops = [k, byteOf l.1] →
      let full := s.now + dt + 10000 * 2 ^ l.1
      (s.findSession k = none → (∀ i : Fin 4, s.sessions[i] ≠ none) →
        ask = .next (s0.answered code c rq .noSession [])) ∧
      (∀ i : Fin 4, s.findSession k = none → s.sessions[i] = none → (∀ j : Fin 4, j < i → s.sessions[j] ≠ none) →
        let res := [k, byteOf l.1, byteOf i.1]
        ask = .next
          { s0.answered code c rq .ok res with
              sessions := upd s.sessions i
                (some { key := k, lease := l.1, last := c.seq, cursor := none,
                        state := .ready full ⟨code, c.seq, .ok, res⟩ }) }) ∧
      (∀ i d, s.findSession k = some (i, d) →
        (∀ e cache, d.state = .ready e cache → d.last = c.seq → cache.kind = code →
          ask = .next
            { s0.answered code c rq cache.status cache.results with
                sessions := upd s.sessions i
                  (some { d with state := .ready (s.now + dt + 10000 * 2 ^ d.lease) cache }) }) ∧
        ((∀ e cache, d.state = .ready e cache → ¬(d.last = c.seq ∧ cache.kind = code)) →
          ask = .next (s0.answered code c rq .inUse []))))

/-- The ends of a session: CLOSE-SESSION (R161) releases what the session owns without a notice, frees its slot, and
answers OK, not cached. A lease that runs out (R164) releases the same with EDIT-ABANDONED for each, the buffer first,
frees the slot, and raises SESSION-EXPIRED last; no response is formed. -/
def Obligations.SessionEndsReleaseWhatTheyOwn : Prop :=
  (∀ (dt : Nat) (c : Ctl) (rq : Fin 8) (i : Fin 4) (d : Session) (s : State), InTurn dt c s rq i d → c.ops = [] →
    let s0 := s.received dt (reqCode .closeSession) c rq
    exec (.closeSession dt c) s = .next
      { s0.answered (reqCode .closeSession) c rq .ok [] with
          ms := s.ms.withoutEditOf c.key, cu := s.cu.withoutStagingOf c.key, sessions := upd s.sessions i none }) ∧
  (∀ (dt e : Nat) (i : Fin 4) (d : Session) (cache : Cached) (s : State),
    s.held = false → s.sessions[i] = some d → d.state = .ready e cache →
    let freed : State :=
      { s.elapse dt with
          now := max (s.now + dt) e, ms := s.ms.withoutEditOf d.key, cu := s.cu.withoutStagingOf d.key,
          sessions := upd s.sessions i none }
    let buffer : Option Detail :=
      match s.ms.edit with
      | some b => if b.owner = d.key then some (.bufferAbandoned false b.target b.prior b.owner) else none
      | none => none
    let staging : Option Detail :=
      match s.cu.staging with
      | .owned key t _ => if key = d.key then some (.stagingAbandoned false t key) else none
      | .free | .held .. => none
    exec (.leaseExpiry dt i) s = .next
      (((freed.raiseIf buffer).raiseIf staging).raise (.sessionExpired d.key i d.last)))

/-- KEEP (R162): answered OK with the lease code and the full lease in milliseconds; the lease restarts in full as for
every executed request, and nothing else changes. Without a session it is NO-SESSION, and with operands BAD-OPERAND. -/
def Obligations.KeepRenewsTheLease : Prop :=
  ∀ (dt : Nat) (c : Ctl) (rq : Fin 8) (s : State),
    (∀ i d, InTurn dt c s rq i d →
      (c.ops = [] →
        AnsweredInSession .keep (.keep dt c) dt c s rq i d .ok
          (fun _ => byteOf d.lease :: bytes3 (10 * 2 ^ d.lease)) id) ∧
      (c.ops ≠ [] → AnsweredInSession .keep (.keep dt c) dt c s rq i d .badOperand (fun _ => []) id)) ∧
    (Sessionless dt c s rq →
      exec (.keep dt c) s = .next
        ((s.received dt (reqCode .keep) c rq).answered (reqCode .keep) c rq .noSession []))

/-! ## Reading -/

/-- The read requests (R16, R18, R96, R134, R173): from a session or sessionless, each is answered OK with its report of
the state as taken and changes nothing, READ-TILE of a free edit buffer NOT-FOUND; READ-STATUS is answered in STARTING
too. The reports hold what R16, R43, R67, R89, R96, R134, R150, R174 and R204 list. Of their bytes, those that no rule
fixes are the model's choices: part MAP (log 17), a validation result (log 18), the levels of part LINK (log 19), the
staging owner (log 20), the cursor position (log 21), part FRAME (log 22), port and store states and the operation in
flight (log 23), that READ-TILE EDIT begins with the owner's key (log 26), and that the HOLD flag, the stall flag and the
full mark are 1 set and 0 clear (log 48). -/
def Obligations.ReadsReportAndChangeNothing : Prop :=
  (∀ (dt : Nat) (c : Ctl) (s : State),
    let read (kind : ReqKind) (st : Status) (res : State → List Byte) : Prop :=
      AnsweredEither kind (requestInstr dt c kind) dt c s st res (fun _ => id)
    (c.ops = [0] → read .readStatus .ok State.deviceReport) ∧
    (c.ops = [1] → read .readStatus .ok State.sessionsReport) ∧
    (c.ops = [2] → read .readStatus .ok State.mapReport) ∧
    (c.ops = [3] → read .readStatus .ok fun s => s.ft.report) ∧
    (c.ops = [4] → read .readStatus .ok State.linkReport) ∧
    (∀ rq, Addressed dt c s rq → s.phase = .starting → c.key = 0 → c.ops = [0] →
      let s0 := s.received dt (reqCode .readStatus) c rq
      exec (.readStatus dt c) s = .next (s0.answered (reqCode .readStatus) c rq .ok s0.deviceReport)) ∧
    (∀ (x : Fin 4) (n : Fin 32), c.ops = [byteOf x.1, byteOf n.1] →
      let t := s.ms.contexts[x]
      read .readTile .ok fun _ =>
        (match t.status with | .blank => 0 | .opened => 1 | .ready => 2) :: byteOf (used t.table).length ::
          (bytes2 t.fill.c0 ++ bytes2 t.fill.c1 ++ bytes2 t.fill.c2 ++
            (match t.table[n] with | none => [0] | some tile => 1 :: tileBytes tile))) ∧
    (∀ (n : Fin 32), c.ops = [4, byteOf n.1] → s.ms.edit = none → read .readTile .notFound fun _ => []) ∧
    (∀ (n : Fin 32) (e : EditBuffer), c.ops = [4, byteOf n.1] → s.ms.edit = some e →
      read .readTile .ok fun _ =>
        [e.owner, byteOf e.target.1, (match e.prior with | .blank => 0 | .ready => 1)] ++
          (match e.result with
           | none => [0]
           | some .ok => [1]
           | some (.failed r i) =>
             [2, (match r with | .range => 1 | .duplicatePosition => 2 | .gap => 3 | .portBudget => 4), byteOf i]) ++
          byteOf (used e.table).length ::
            (bytes2 e.fill.c0 ++ bytes2 e.fill.c1 ++ bytes2 e.fill.c2 ++
              (match e.table[n] with | none => [0] | some tile => 1 :: tileBytes tile))) ∧
    (∀ p : Fin 8, c.ops = [byteOf p.1] → read .readPort .ok fun s => s.portReport s.ports[p]) ∧
    (c.ops = [] → read .readStoreStatus .ok fun s => s.rs.report)) ∧
  (∀ t : Tile, tileBytes t =
    [byteOf t.port.1, byteOf t.pos.1] ++ bytes2 t.x ++ bytes2 t.y ++ bytes2 t.w ++ bytes2 t.h ++
      [yesNo t.mirrorH, yesNo t.mirrorV, byteOf t.table.1, byteOf t.bright]) ∧
  (∀ s : State,
    let count (p : RqSlot → Bool) : Byte := byteOf (s.rq.slots.toList.filter p).length
    let storeState : Byte := if s.rs.op ≠ none ∨ s.rs.load ≠ none then 1 else if s.rs.full = true then 2 else 0
    let entries (es : List SeqEntry) : List Byte :=
      byteOf es.length :: es.flatMap fun e => [byteOf e.ctx.1, byteOf e.count]
    let cursor (o : Option Cursor) : List Byte :=
      match o with
      | none => [255, 0, 0]
      | some ⟨t, pos⟩ =>
        (match t with | .table t => byteOf t.1 | .staging => 8) :: bytes2 (pos / 1024 * 16384 + pos % 1024)
    s.deviceReport =
      [(match s.phase with | .starting => 0 | .running => 1), s.address, count fun x => decide (x = .free),
       count fun x => match x with | .reserved .. => true | _ => false,
       count fun x => match x with | .filled _ => true | _ => false] ++
        (match s.cu.staging with
         | .free => [0, 0] | .owned key t _ => [1, key, 1, byteOf t.1] | .held t _ => [2, 1, byteOf t.1]) ++
        [storeState, byteOf (s.ns.slots.toList.filter fun x => x.body.isSome).length] ∧
    s.sessionsReport = (s.sessions.toList.flatMap fun o =>
      match o with
      | none => [0]
      | some d =>
        match d.state with
        | .ready e _ =>
          [129, d.key, byteOf d.lease] ++ bytes3 ((e - s.now) / 1000) ++ [d.last, 0, 0] ++ cursor d.cursor
        | .waiting h kind seq _ =>
          [2, d.key, byteOf d.lease] ++ bytes3 (h / 1000) ++ [d.last, reqCode kind, seq] ++ cursor d.cursor) ∧
    s.mapReport =
      (match s.ms.selection with
       | .none => [0]
       | .context c => [1, byteOf c.1]
       | .sequence es i r => 2 :: (entries es ++ [byteOf i, byteOf r])) ++
      (match s.ms.switch with
       | none => [0]
       | some w =>
         1 :: ((match w.target with | .context c => [0, byteOf c.1] | .sequence es => 1 :: entries es) ++
           (match w.notBefore with | none => [0] | some n => 1 :: wordBytes n) ++
           (match w.issuer with | .session k => [k, 0] | .sessionless => [0, 0] | .broadcast => [0, 1]))) ++
      (match s.ms.install with | none => [0] | some t => [1, byteOf t.1]) ++ [yesNo s.ms.hold] ++
      (match s.ms.edit with | none => [0] | some e => [1, e.owner, byteOf e.target.1]) ++
      (s.ms.contexts.toList.map fun c => match c.status with | .blank => 0 | .opened => 1 | .ready => 2) ∧
    s.ft.report =
      (match s.ft.frame with
       | none => [0]
       | some f =>
         let bit (b : Bool) (n : Nat) : Nat := if b then n else 0
         let d := s.ft.damage
         1 :: (wordBytes f.number ++ bytes2 f.width ++ bytes2 f.height ++ bytes2 s.ft.runs ++
           [byteOf (bit d.range 1 + bit d.order 2 + bit d.lostRuns 4 + bit d.truncated 8)])) ++
      [(match s.ft.lock with | .noSignal => 0 | .acquiring => 1 | .locked => 2 | .holdover => 3 | .lost => 4),
       byteOf s.ft.regular] ++
      (match s.ft.reference with | none => [0] | some p => 1 :: bytes3 p) ++
      (match s.ft.measured with | none => [0] | some p => 1 :: bytes3 p) ++
      wordBytes s.ft.lastNumber ++ wordBytes s.ft.opened ++ wordBytes s.ft.damagedCount ∧
    s.linkReport =
      [(if s.dn.up = true then 0 else 1), byteOf s.dn.buffer.length, yesNo s.holdOut, yesNo s.up.holdIn,
       (if s.up.sending = none then 0 else 1), (match s.up.turn with | .toLocal => 0 | .toPass => 1)] ∧
    (∀ p : Port,
      let state : Byte :=
        if s.phase = .starting then 5
        else if p.config.enabled = false then 0
        else if p.stalled = true then 1
        else if p.config.forced ≠ none ∨ p.releasePending = true then 2
        else if (s.ft.lock = .lost ∨ s.ft.lock = .noSignal) ∧ s.ft.frame = none then 3
        else if p.queue ≠ [] ∨ p.transferring = true then 4
        else 5
      let tally (o : Option Tally) : List Byte :=
        match o with
        | none => [0]
        | some t => 1 :: (wordBytes t.frame ++ bytes2 t.queued ++ bytes2 t.delivered ++ bytes2 t.dropped)
      s.portReport p =
        [yesNo p.config.enabled, byteOf (lossCode p.config.loss), byteOf (patternCode p.config.pattern),
         byteOf (forcedCode p.config.forced), state, yesNo p.stalled, yesNo p.releasePending, byteOf p.queue.length,
         yesNo p.transferring] ++ tally p.current ++ tally p.last ++ wordBytes p.genCount ++
        byteOf s.cadence :: bytes3 (match s.ft.reference with | some r => r | none => 1000000 / cadenceRate s.cadence)) ∧
    (let r := s.rs
     let live := (r.directory.toList.map fun o => match o with | some e => 4 + e.len | none => 0).sum
     let map (p : DirEntry → Bool) : Nat :=
       (RecKey.all.map fun k => if r.directory[k.idx].any p then 2 ^ k.idx.1 else 0).sum
     r.report =
       [storeState, yesNo r.full, (match r.active with | .A => 0 | .B => 1)] ++ wordBytes r.generation ++
         bytes2 r.append ++ bytes2 (if r.full then 0 else 32768 - r.append) ++ bytes2 live ++
         bytes2 (r.append - 8 - live) ++ bytes2 (map fun _ => true) ++ bytes2 (map fun e => e.bad) ++
         (r.directory.toList.flatMap fun o => match o with | some e => bytes2 e.len | none => []) ++
         (match r.op with
          | none => [0]
          | some op => [1, reqCode op.kind, byteOf (keyIndex op.recKey), op.session])))

/-! ## The cursor -/

/-- CURSOR-SET, CURSOR-WRITE and CURSOR-READ (R169 to R171): the cursor is set to an entry of a table or, for its owner,
of the staging area; a write stores its values from the cursor on and a read returns those there, and each moves the
cursor past them; one that would pass the last entry is BAD-OPERAND, one without a cursor NO-CURSOR, and a write
through a table's cursor NOT-OWNER, with nothing moved. The position's two bytes are log 21, and the layout of
CURSOR-READ's results, values first, is log 23. -/
def Obligations.CursorTransfersAdvance : Prop :=
  ∀ (dt : Nat) (c : Ctl) (rq : Fin 8) (i : Fin 4) (d : Session) (s : State), InTurn dt c s rq i d →
    let at' (t : CursorTarget) (pos : Nat) : Session := { d with cursor := some ⟨t, pos⟩ }
    let place (pos : Nat) : List Byte := bytes2 (pos / 1024 * 16384 + pos % 1024)
    let set (d' : Session) (st : Status) (res : List Byte) : Prop :=
      AnsweredInSession .cursorSet (.cursorSet dt c) dt c s rq i d' st (fun _ => res) id
    let write (d' : Session) (st : Status) (res : List Byte) (eff : State → State) : Prop :=
      AnsweredInSession .cursorWrite (.cursorWrite dt c) dt c s rq i d' st (fun _ => res) eff
    let read (d' : Session) (st : Status) (res : List Byte) : Prop :=
      AnsweredInSession .cursorRead (.cursorRead dt c) dt c s rq i d' st (fun _ => res) id
    (∀ (curve : Fin 3) (index : Fin 1024),
      let pos := 1024 * curve.1 + index.1
      (∀ t : Fin 8, c.ops = [byteOf t.1, byteOf curve.1] ++ bytes2 index.1 →
        set (at' (.table t) pos) .ok (byteOf t.1 :: place pos)) ∧
      (c.ops = [8, byteOf curve.1] ++ bytes2 index.1 →
        (∀ t curves, s.cu.staging = .owned c.key t curves → set (at' .staging pos) .ok (8 :: place pos)) ∧
        ((∀ t curves, s.cu.staging ≠ .owned c.key t curves) → set d .notOwner []))) ∧
    (∀ vs : List Nat, 1 ≤ vs.length → vs.length ≤ 24 → (∀ v ∈ vs, v < 4096) →
      c.ops = byteOf vs.length :: vs.flatMap bytes2 →
      (d.cursor = none → write d .noCursor [] id) ∧
      (∀ t pos, d.cursor = some ⟨.table t, pos⟩ → write d .notOwner [] id) ∧
      (∀ pos, d.cursor = some ⟨.staging, pos⟩ → 3072 < pos + vs.length → write d .badOperand [] id) ∧
      (∀ pos t curves, d.cursor = some ⟨.staging, pos⟩ → pos + vs.length ≤ 3072 →
        s.cu.staging = .owned c.key t curves →
        write (at' .staging (pos + vs.length)) .ok (place (pos + vs.length)) fun s =>
          { s with cu := { s.cu with staging := .owned c.key t (curveWrite pos vs curves) } })) ∧
    (∀ n : Nat, 1 ≤ n → n ≤ 24 → c.ops = [byteOf n] →
      (d.cursor = none → read d .noCursor []) ∧
      (∀ t pos, d.cursor = some ⟨t, pos⟩ → 3072 < pos + n → read d .badOperand []) ∧
      (∀ t pos, d.cursor = some ⟨t, pos⟩ → pos + n ≤ 3072 →
        let curves : Curves :=
          match t with
          | .table u => s.cu.tables[u]
          | .staging => s.cu.staging.curves
        read (at' t (pos + n)) .ok
          (byteOf n :: (((List.range n).flatMap fun j => bytes2 (curveEntry curves (pos + j))) ++ place (pos + n)))))

/-! ## Editing -/

/-- OPEN-EDIT (R21), from a session: an OPEN context is NOT-READY, an owned buffer LOCKED, a context the selection or
the switch part names IN-USE; otherwise the session owns the buffer with the context's tiles and fill colour (COPY) or
none and black (CLEAR), and the context becomes OPEN. -/
def Obligations.OpenEditTakesTheBuffer : Prop :=
  ∀ (dt : Nat) (c : Ctl) (rq : Fin 8) (i : Fin 4) (d : Session) (x : Fin 4) (copy : Bool) (s : State),
    InTurn dt c s rq i d → c.ops = [byteOf x.1, if copy then 0 else 1] →
    let t := s.ms.contexts[x]
    let answer (st : Status) (eff : State → State) : Prop :=
      AnsweredInSession .openEdit (.openEdit dt c) dt c s rq i d st (fun _ => []) eff
    let buffer (prior : PriorStatus) : EditBuffer :=
      { owner := c.key, target := x, prior := prior, table := if copy then t.table else Vector.replicate 32 none,
        fill := if copy then t.fill else ⟨0, 0, 0⟩, result := none }
    let opened (prior : PriorStatus) (s : State) : State :=
      { s with ms := { s.ms with edit := some (buffer prior),
                                 contexts := upd s.ms.contexts x { t with status := .opened } } }
    (t.status = .opened → answer .notReady id) ∧
    (t.status ≠ .opened → s.ms.edit ≠ none → answer .locked id) ∧
    (t.status ≠ .opened → s.ms.edit = none → s.ms.inUse x = true → answer .inUse id) ∧
    (t.status = .blank → s.ms.edit = none → s.ms.inUse x = false → answer .ok (opened .blank)) ∧
    (t.status = .ready → s.ms.edit = none → s.ms.inUse x = false → answer .ok (opened .ready))

/-- SET-TILE, CLEAR-TILE and SET-FILL of the buffer's owner (R22 to R24): a slot takes an entry in range, a slot becomes
unused, the fill colour takes three values 0..4095; each makes the last validation result none and changes nothing
else. -/
def Obligations.EditsWriteTheBuffer : Prop :=
  ∀ (dt : Nat) (c : Ctl) (rq : Fin 8) (i : Fin 4) (d : Session) (e : EditBuffer) (n : Fin 32) (s : State),
    InTurn dt c s rq i d → s.ms.edit = some e → e.owner = c.key →
    let answer (kind : ReqKind) (e' : EditBuffer) : Prop :=
      AnsweredInSession kind (requestInstr dt c kind) dt c s rq i d .ok (fun _ => [])
        fun s => { s with ms := { s.ms with edit := some e' } }
    (∀ t : Tile, t.x < 8192 → t.y < 8192 → 1 ≤ t.w → t.w ≤ 256 → 1 ≤ t.h → t.h ≤ 256 → t.bright < 256 →
      c.ops = byteOf n.1 :: tileBytes t →
      answer .setTile { e with table := upd e.table n (some t), result := none }) ∧
    (c.ops = [byteOf n.1] → answer .clearTile { e with table := upd e.table n none, result := none }) ∧
    (∀ f : Rgb, f.c0 < 4096 → f.c1 < 4096 → f.c2 < 4096 → c.ops = bytes2 f.c0 ++ bytes2 f.c1 ++ bytes2 f.c2 →
      answer .setFill { e with fill := f, result := none })

/-- CHECK-EDIT, CLOSE-EDIT and ABANDON-EDIT of the buffer's owner (R25 to R27): a check stores the validation result and
answers it; a close that fails validation does the same, one during a save of the target is BUSY, another makes the
buffer the target's content and the target READY; an abandon returns the target to its prior status. The last two free
the buffer. -/
def Obligations.EditsAreCheckedAndClosed : Prop :=
  ∀ (dt : Nat) (c : Ctl) (rq : Fin 8) (i : Fin 4) (d : Session) (e : EditBuffer) (s : State),
    InTurn dt c s rq i d → s.ms.edit = some e → e.owner = c.key → c.ops = [] →
    let answer (kind : ReqKind) (st : Status) (res : List Byte) (eff : State → State) : Prop :=
      AnsweredInSession kind (requestInstr dt c kind) dt c s rq i d st (fun _ => res) eff
    let result (v : Validation) (s : State) : State :=
      { s with ms := { s.ms with edit := some { e with result := some v } } }
    let freed (x : Context) (s : State) : State :=
      { s with ms := { s.ms with edit := none, contexts := upd s.ms.contexts e.target x } }
    let saving : Prop := ∃ op, s.rs.op = some op ∧ op.kind = .saveContext ∧ op.recKey = some (.context e.target)
    (validate e.table = .ok → answer .checkEdit .ok [] (result .ok)) ∧
    (∀ r n, validate e.table = .failed r n →
      answer .checkEdit .validateFail [reasonCode r, byteOf n] (result (.failed r n)) ∧
      answer .closeEdit .validateFail [reasonCode r, byteOf n] (result (.failed r n))) ∧
    (validate e.table = .ok → saving → answer .closeEdit .busy [] id) ∧
    (validate e.table = .ok → ¬saving → answer .closeEdit .ok [] (freed ⟨.ready, e.table, e.fill⟩)) ∧
    answer .abandonEdit .ok []
      (freed { s.ms.contexts[e.target] with
                 status := match e.prior with | .blank => CtxStatus.blank | .ready => CtxStatus.ready })

/-- Validation (R10 to R14) passes exactly when every tile lies within 8192 by 8192, no two tiles share a port and chain
position, the positions on each port are below its number of tiles, and no line of a port carries more than 1,024
pixels. Otherwise the first of these that fails is the reason, with the lowest slot it fails for. The image check (R15)
passes exactly when length, used count, fill colour and slot numbers are in form, every field is in range and no slot is
repeated, and gives the entries their slots; failing, it reports the lowest slot that is repeated or has a field out of
range, or 0 without one. That the entries looked at are those the used count names, as far as they stand whole in the
record, is log 24. -/
def Obligations.ValidationChecksFourConditions : Prop :=
  (∀ t : TileTable,
    let ts := used t
    let range (e : Nat × Tile) : Prop := 8192 < e.2.x + e.2.w ∨ 8192 < e.2.y + e.2.h
    let twice (e : Nat × Tile) : Prop := ∃ f ∈ ts, f.1 ≠ e.1 ∧ f.2.port = e.2.port ∧ f.2.pos = e.2.pos
    let gap (e : Nat × Tile) : Prop := (ts.filter fun f => f.2.port == e.2.port).length ≤ e.2.pos.1
    let exceeds (e : Nat × Tile) : Prop := ∃ y, e.2.y ≤ y ∧ y < e.2.y + e.2.h ∧
      1024 < ((ts.filter fun f => decide (f.2.port = e.2.port ∧ f.2.y ≤ y ∧ y < f.2.y + f.2.h)).map fun f => f.2.w).sum
    let passes (bad : Nat × Tile → Prop) : Prop := ∀ e ∈ ts, ¬bad e
    let lowest (bad : Nat × Tile → Prop) (n : Nat) : Prop := (∃ e ∈ ts, e.1 = n ∧ bad e) ∧ ∀ f ∈ ts, bad f → n ≤ f.1
    (∀ e : Nat × Tile, e ∈ ts ↔ ∃ i : Fin 32, e.1 = i.1 ∧ t[i] = some e.2) ∧
    (validate t = .ok ↔ passes range ∧ passes twice ∧ passes gap ∧ passes exceeds) ∧
    (∀ n,
      (lowest range n → validate t = .failed .range n) ∧
      (passes range → lowest twice n → validate t = .failed .duplicatePosition n) ∧
      (passes range → passes twice → lowest gap n → validate t = .failed .gap n) ∧
      (passes range → passes twice → passes gap → lowest exceeds n → validate t = .failed .portBudget n))) ∧
  (∀ ws : List Word,
    let word (i : Nat) : Nat := (ws.getD i 0).toNat
    let field (j i : Nat) : Nat := word (4 + 6 * j + i)
    let m := min (word 3) ((ws.length - 4) / 6)
    let inRange (j : Nat) : Prop :=
      field j 1 / 256 < 8 ∧ field j 1 % 256 < 8 ∧ field j 2 < 8192 ∧ field j 3 < 8192 ∧ field j 5 / 2048 % 8 = 0
    let bad (j : Nat) : Prop :=
      j < m ∧ field j 0 < 32 ∧ (¬inRange j ∨ ∃ k, k < m ∧ k ≠ j ∧ field k 0 = field j 0)
    let inForm : Prop :=
      ws.length = 4 + 6 * word 3 ∧ word 3 ≤ 32 ∧ word 0 < 4096 ∧ word 1 < 4096 ∧ word 2 < 4096 ∧
        (∀ j, j < m → field j 0 < 32) ∧ ∀ j, ¬bad j
    (inForm →
      ∃ t : TileTable, imageCheck ws = .inr (⟨word 0, word 1, word 2⟩, t) ∧
        ∀ i : Fin 32,
          ((∀ j, j < m → field j 0 ≠ i.1) → t[i] = none) ∧
          (∀ j, j < m → field j 0 = i.1 → ∃ e : Tile, t[i] = some e ∧
            e.port.1 = field j 1 / 256 ∧ e.pos.1 = field j 1 % 256 ∧ e.x = field j 2 ∧ e.y = field j 3 ∧
            e.w = field j 4 / 256 + 1 ∧ e.h = field j 4 % 256 + 1 ∧
            e.mirrorH = decide (field j 5 / 32768 = 1) ∧ e.mirrorV = decide (field j 5 / 16384 % 2 = 1) ∧
            e.table.1 = field j 5 / 256 % 8 ∧ e.bright = field j 5 % 256)) ∧
    (¬inForm →
      ((∀ j, ¬bad j) → imageCheck ws = .inl 0) ∧
      (∀ j, bad j → (∀ k, bad k → field j 0 ≤ field k 0) → imageCheck ws = .inl (field j 0))))

/-! ## Selecting -/

/-- SELECT-CONTEXT and SELECT-SEQUENCE (R29 to R31), from a session, sessionless and in a broadcast: a context that is
not READY is NOT-READY, for a list with the first such context in the results; otherwise the switch part is placed with
its target, not-before frame and issuer, and a part it replaces is reported by SWITCH-SUPERSEDED. That the
FRAME-LOCK-CHANGED of the request's own packet, taken in NO-SIGNAL, is raised before SWITCH-SUPERSEDED is log 31. -/
def Obligations.SelectionsPlaceTheSwitchPart : Prop :=
  ∀ (dt : Nat) (c : Ctl) (n : Option Word) (s : State),
    let frame : List Byte := match n with | some w => wordBytes w | none => []
    let placed (target : Target) (issuer : Issuer) (s : State) : State :=
      let t : State := { s with ms := { s.ms with switch := some ⟨target, n, issuer⟩ } }
      match s.ms.switch with
      | none => t
      | some o =>
        t.raise (.switchSuperseded o.issuer issuer
          (match o.target with | .sequence _ => true | .context _ => false))
    (∀ x : Fin 4, c.ops = byteOf x.1 :: frame →
      (s.ms.contexts[x].status = .ready →
        AnsweredAny .selectContext (.selectContext dt c) dt c s .ok (fun _ => []) (placed (.context x))) ∧
      (s.ms.contexts[x].status ≠ .ready →
        AnsweredAny .selectContext (.selectContext dt c) dt c s .notReady (fun _ => []) (fun _ => id))) ∧
    (∀ es : List SeqEntry, 1 ≤ es.length → es.length ≤ 8 → (∀ e ∈ es, 1 ≤ e.count ∧ e.count ≤ 255) →
      c.ops = byteOf es.length :: (es.flatMap (fun e => [byteOf e.ctx.1, byteOf e.count]) ++ frame) →
      ((∀ e ∈ es, s.ms.contexts[e.ctx].status = .ready) →
        AnsweredAny .selectSequence (.selectSequence dt c) dt c s .ok (fun _ => []) (placed (.sequence es))) ∧
      (∀ as e bs, es = as ++ e :: bs → (∀ a ∈ as, s.ms.contexts[a.ctx].status = .ready) →
        s.ms.contexts[e.ctx].status ≠ .ready →
        AnsweredAny .selectSequence (.selectSequence dt c) dt c s .notReady (fun _ => [byteOf e.ctx.1])
          (fun _ => id)))

/-- CANCEL-SELECT (R32), from a session, sessionless and in a broadcast: a switch part is discarded and the status is OK,
with the install part, HOLD, the active selection and the notices as they were; without one the status is NOT-FOUND and
nothing changes. -/
def Obligations.CancelSelectRemovesTheSwitchPart : Prop :=
  ∀ (dt : Nat) (c : Ctl) (s : State), c.ops = [] →
    (s.ms.switch ≠ none →
      AnsweredAny .cancelSelect (.cancelSelect dt c) dt c s .ok (fun _ => [])
        fun _ s => { s with ms := { s.ms with switch := none } }) ∧
    (s.ms.switch = none →
      AnsweredAny .cancelSelect (.cancelSelect dt c) dt c s .notFound (fun _ => []) fun _ => id)

/-- HOLD, RELEASE and SET-CADENCE (R33, R97), from a session, sessionless and in a broadcast: the first sets and the
second clears the HOLD flag, whatever it was; the third sets the cadence code and leaves the running interval alone. -/
def Obligations.HoldReleaseAndCadence : Prop :=
  ∀ (dt : Nat) (c : Ctl) (s : State),
    (c.ops = [] →
      AnsweredAny .hold (.hold dt c) dt c s .ok (fun _ => [])
        (fun _ s => { s with ms := { s.ms with hold := true } }) ∧
      AnsweredAny .release (.release dt c) dt c s .ok (fun _ => [])
        (fun _ s => { s with ms := { s.ms with hold := false } })) ∧
    (∀ code : Fin 16, c.ops = [byteOf code.1] →
      AnsweredAny .setCadence (.setCadence dt c) dt c s .ok (fun _ => []) fun _ s => { s with cadence := code.1 })

/-! ## Staging -/

/-- BEGIN-TABLE, END-TABLE and ABANDON-TABLE (R71 to R73): a staging area not free is LOCKED, a table being saved BUSY;
otherwise the session owns the area with the table's curves (COPY) or the identity (IDENTITY). The owner hands it over,
which places the install part, or frees it; either drops its cursor into the area. -/
def Obligations.StagingIsTakenAndHandedOver : Prop :=
  ∀ (dt : Nat) (c : Ctl) (rq : Fin 8) (i : Fin 4) (d : Session) (s : State), InTurn dt c s rq i d →
    let answer (kind : ReqKind) (d' : Session) (st : Status) (eff : State → State) : Prop :=
      AnsweredInSession kind (requestInstr dt c kind) dt c s rq i d' st (fun _ => []) eff
    let staged (g : Staging) (s : State) : State := { s with cu := { s.cu with staging := g } }
    let d' : Session :=
      { d with cursor := match d.cursor with | some ⟨.table t, pos⟩ => some ⟨.table t, pos⟩ | _ => none }
    (∀ (t : Fin 8) (copy : Bool), c.ops = [byteOf t.1, if copy then 0 else 1] →
      let saving : Prop := ∃ op, s.rs.op = some op ∧ op.kind = .saveTable ∧ op.recKey = some (.table t)
      (s.cu.staging ≠ .free → answer .beginTable d .locked id) ∧
      (s.cu.staging = .free → saving → answer .beginTable d .busy id) ∧
      (s.cu.staging = .free → ¬saving →
        answer .beginTable d .ok (staged (.owned c.key t (if copy then s.cu.tables[t] else []))))) ∧
    (∀ t curves, c.ops = [] → s.cu.staging = .owned c.key t curves →
      answer .endTable d' .ok
        (fun s => { staged (.held t curves) s with ms := { s.ms with install := some t } }) ∧
      answer .abandonTable d' .ok (staged .free))

/-! ## Port settings and notices -/

/-- SET-PORT (R87, R93): the enabled item, loss policy and policy pattern are set; a disable also ends a generated frame,
stops the stall timer, clears the stall flag, and discards every line but the one in transfer, counting the rows of
trunk lines dropped in their frame's record. The port then starts what it can. The named values are coded by their
position (R204). -/
def Obligations.SetPortConfiguresThePort : Prop :=
  (∀ (dt : Nat) (c : Ctl) (rq : Fin 8) (i : Fin 4) (d : Session) (p : Fin 8) (on : Bool) (l : LossPolicy) (k : Pattern)
    (s : State),
    InTurn dt c s rq i d → c.ops = [byteOf p.1, yesNo on, byteOf (lossCode l), byteOf (patternCode k)] →
    let o := s.ports[p]
    let config : PortConfig := ⟨on, l, k, o.config.forced⟩
    let waiting := if o.transferring then o.queue.drop 1 else o.queue
    let rowsOf (age : Age) : Nat :=
      ((waiting.filter fun x => match x.source with | .trunk _ a => a == age | .policy | .pattern => false).map
        fun x => x.rows.length).sum
    let drop (n : Nat) (t : Tally) : Tally := { t with dropped := t.dropped + n }
    let q : Port :=
      if o.config.enabled = true ∧ on = false then
        { o with config := config, gen := none, stallTimer := none, stalled := false,
                 queue := if o.transferring then o.queue.take 1 else [],
                 current := o.current.map (drop (rowsOf .current)), last := o.last.map (drop (rowsOf .last)) }
      else { o with config := config }
    AnsweredInSession .setPort (.setPort dt c) dt c s rq i d .ok (fun _ => []) (fun s => s.setPort p q)) ∧
  ([.dark, .fill, .pattern] : List LossPolicy).map lossCode = [0, 1, 2] ∧
  ([.solid, .bars, .ramp, .grid] : List Pattern).map patternCode = [0, 1, 2, 3] ∧
  ([none, some .solid, some .bars, some .ramp, some .grid] : List (Option Pattern)).map forcedCode = [0, 1, 2, 3, 4]

/-- FORCE-PATTERN (R88, R100, R101), from a session, sessionless and in a broadcast: at the port named, or at every port
in order, a change of the forced item ends the output it replaces (policy, or the former pattern) with its waiting
lines; a change to NONE while a frame is open leaves a release pending. That waiting lines of a generated frame
that has placed its last line are discarded too is log 15, and that the ports change in ascending order log 16. -/
def Obligations.ForcePatternChangesThePorts : Prop :=
  ∀ (dt : Nat) (c : Ctl) (kind : Option Pattern) (s : State),
    let forced (s : State) (p : Port) : Port :=
      let ended : LineSource := if p.config.forced = none then .policy else .pattern
      let waiting := if p.transferring then p.queue.drop 1 else p.queue
      let kept := (if p.transferring then p.queue.take 1 else []) ++ waiting.filter fun x => decide (x.source ≠ ended)
      if p.config.forced = kind then p
      else
        { p with
            config := { p.config with forced := kind },
            releasePending := decide (kind = none ∧ s.ft.frame ≠ none),
            gen := p.gen.filter fun g => g.policy != decide (p.config.forced = none),
            queue := kept,
            stalled := if kept = [] ∧ p.queue ≠ [] then false else p.stalled }
    (∀ p : Fin 8, c.ops = [byteOf p.1, byteOf (forcedCode kind)] →
      AnsweredAny .forcePattern (.forcePattern dt c) dt c s .ok (fun _ => [])
        fun _ s => s.setPort p (forced s s.ports[p])) ∧
    (c.ops = [255, byteOf (forcedCode kind)] →
      AnsweredAny .forcePattern (.forcePattern dt c) dt c s .ok (fun _ => [])
        fun _ s => ([0, 1, 2, 3, 4, 5, 6, 7] : List (Fin 8)).foldl (fun s p => s.setPort p (forced s s.ports[p])) s)

/-- Raises and SET-NOTICE-CLASS (R181, R182, R186): a raise makes an EMPTY slot PENDING at the tail of the list, unless
its class is 3; adds to a PENDING one; during the slot's own transmission it begins a carry, which moves the kind to the
tail, or adds to it. The class request answers the former class; class 3 empties the slot. -/
def Obligations.NoticeSlotsGatherRaises : Prop :=
  (∀ (d : Detail) (s : State),
    let k := d.kind
    let sl := s.ns.slots[k.idx]
    let put (b : Pending) : Vector NoticeSlot 16 := upd s.ns.slots k.idx ⟨sl.cls, some b⟩
    let moved := s.ns.list.filter fun x => decide (x ≠ k)
    (sl.body = none → sl.cls = 3 → s.raise d = s) ∧
    (sl.body = none → sl.cls ≠ 3 →
      s.raise d = { s with ns := ⟨put ⟨1, d, d, false, none⟩, s.ns.list ++ [k]⟩ }) ∧
    (∀ p, sl.body = some p → p.sending = false →
      s.raise d = { s with ns := ⟨put { p with count := min 255 (p.count + 1), latest := d }, s.ns.list⟩ }) ∧
    (∀ p, sl.body = some p → p.sending = true → p.carry = none →
      s.raise d = { s with ns := ⟨put { p with carry := some ⟨1, d, d⟩ }, moved ++ [k]⟩ }) ∧
    (∀ p y, sl.body = some p → p.sending = true → p.carry = some y →
      s.raise d =
        { s with ns := ⟨put { p with carry := some ⟨min 255 (y.count + 1), y.first, d⟩ }, s.ns.list⟩ })) ∧
  (∀ (dt : Nat) (c : Ctl) (rq : Fin 8) (i : Fin 4) (d : Session) (k : NoticeKind) (cls : Fin 4) (s : State),
    InTurn dt c s rq i d → c.ops = [byteOf k.idx.1, byteOf cls.1] →
    AnsweredInSession .setNoticeClass (.setNoticeClass dt c) dt c s rq i d .ok
      (fun _ => [byteOf s.ns.slots[k.idx].cls.1])
      fun s =>
        if cls = 3 then
          { s with ns := ⟨upd s.ns.slots k.idx ⟨3, none⟩, s.ns.list.filter fun x => decide (x ≠ k)⟩ }
        else { s with ns := ⟨upd s.ns.slots k.idx ⟨cls, s.ns.slots[k.idx].body⟩, s.ns.list⟩ })

/-! ## The record store -/

/-- The long store requests (R113 to R116, R120 to R123, R126, R166): each is tested for an operation in flight (BUSY),
the full mark where it writes records (STORE-FULL) and its own conditions, and is then the operation in flight with its
session WAITING. A save fixes what it will write and advances the append point past it: a context's fill colour, used
count and entries, a table's 3,072 entries, or the settings of R116 in the sixteen words of R207. That a restore has its
copy and a save its place from acceptance on is log 8; that unused words of the settings are 0 is log 25. -/
def Obligations.StoreRequestsAreTestedAndAccepted : Prop :=
  ∀ (dt : Nat) (c : Ctl) (rq : Fin 8) (i : Fin 4) (d : Session) (e : Nat) (cache : Cached) (s : State),
    InTurn dt c s rq i d → d.state = .ready e cache →
    let long : List ReqKind := [.saveContext, .saveTable, .saveSettings, .restoreContext, .restoreTable, .deleteRecord,
      .compact, .eraseStore]
    let marked : List ReqKind := [.saveContext, .saveTable, .saveSettings, .deleteRecord]
    let refused (kind : ReqKind) (st : Status) : Prop :=
      AnsweredInSession kind (requestInstr dt c kind) dt c s rq i d st (fun _ => []) id
    let accepted (kind : ReqKind) (k : Option RecKey) (addr append : Nat) (body : List Word) : Prop :=
      let s0 := s.received dt (reqCode kind) c rq
      exec (requestInstr dt c kind) s = .next
        (({ s0 with rs := { s0.rs with append := append } } : State).acceptedIn kind c rq i d e
          { kind := kind, recKey := k, session := c.key, slot := i, attached := true, addr := addr, body := body })
    let editor : Prop := ∃ b, s.ms.edit = some b ∧ b.owner = c.key
    let stager : Prop := ∃ t curves, s.cu.staging = .owned c.key t curves
    let saved (kind : ReqKind) (k : RecKey) (body : List Word) : Prop :=
      let after := s.rs.append + 4 + body.length
      (after ≤ 32768 → accepted kind (some k) s.rs.append after body) ∧ (32768 < after → refused kind .storeFull)
    let copy (en : DirEntry) : List Word := recordBody (s.rs.bank s.rs.active) en.addr en.len
    let w (n : Nat) : Word := BitVec.ofNat 16 n
    let image (x : Context) : List Word :=
      [w x.fill.c0, w x.fill.c1, w x.fill.c2, w (used x.table).length] ++ (used x.table).flatMap fun e =>
        [w e.1, w (256 * e.2.port.1 + e.2.pos.1), w e.2.x, w e.2.y, w (256 * (e.2.w - 1) + (e.2.h - 1)),
         w ((if e.2.mirrorH then 32768 else 0) + (if e.2.mirrorV then 16384 else 0) + 256 * e.2.table.1 + e.2.bright)]
    let settings : List Word :=
      let start : Nat × List SeqEntry :=
        match s.ms.selection with
        | .none => (0, [])
        | .context x => (256, [⟨x, 0⟩])
        | .sequence es _ _ => (512 + 1024 * (es.length - 1), es)
      let count (j : Nat) : Nat := match start.2[j]? with | some e => e.count | none => 0
      let ctx (j : Nat) : Nat := match start.2[j]? with | some e => e.ctx.1 | none => 0
      let cls (j : Fin 16) : Nat := s.ns.slots[j].cls.1
      (s.ports.toList.map fun p => w (4096 * (if p.config.enabled then 1 else 0) + 256 * lossCode p.config.loss +
        16 * patternCode p.config.pattern + forcedCode p.config.forced)) ++
      [w (s.cadence + start.1),
       w (([0, 1, 2, 3, 4, 5, 6, 7] : List (Fin 16)).foldl (fun v j => 4 * v + cls j) 0),
       w (([8, 9, 10, 11, 12, 13, 14, 15] : List (Fin 16)).foldl (fun v j => 4 * v + cls j) 0),
       w (256 * count 0 + count 1), w (256 * count 2 + count 3), w (256 * count 4 + count 5),
       w (256 * count 6 + count 7),
       w (([0, 1, 2, 3, 4, 5, 6, 7] : List Nat).foldl (fun v j => 4 * v + ctx j) 0)]
    (s.rs.op ≠ none → ∀ kind ∈ long, kind.malformed c.ops = false → (kind = .restoreContext → editor) →
      (kind = .restoreTable → stager) → refused kind .busy) ∧
    (¬editor → ReqKind.restoreContext.malformed c.ops = false → refused .restoreContext .notOwner) ∧
    (¬stager → ReqKind.restoreTable.malformed c.ops = false → refused .restoreTable .notOwner) ∧
    (s.rs.op = none → s.rs.full = true → ∀ kind ∈ marked, kind.malformed c.ops = false → refused kind .storeFull) ∧
    (s.rs.op = none → s.rs.full = false →
      (∀ x : Fin 4, c.ops = [byteOf x.1] →
        (s.ms.contexts[x].status ≠ .ready → refused .saveContext .notReady) ∧
        (s.ms.contexts[x].status = .ready → saved .saveContext (.context x) (image s.ms.contexts[x]))) ∧
      (∀ t : Fin 8, c.ops = [byteOf t.1] →
        let claimed : Prop := s.ms.install = some t ∨ ∃ key curves, s.cu.staging = .owned key t curves
        (claimed → refused .saveTable .busy) ∧
        (¬claimed → saved .saveTable (.table t) ((List.range 3072).map fun j => w (curveEntry s.cu.tables[t] j)))) ∧
      (c.ops = [] → saved .saveSettings .settings settings) ∧
      (∀ k : RecKey, c.ops = [byteOf (keyIndex (some k))] →
        (s.rs.directory[k.idx] = none → refused .deleteRecord .notFound) ∧
        (∀ en, s.rs.directory[k.idx] = some en →
          accepted .deleteRecord (some k) en.addr s.rs.append []))) ∧
    (s.rs.op = none →
      (∀ x : Fin 4, c.ops = [byteOf (keyIndex (some (.context x)))] → editor →
        (s.rs.directory[(RecKey.context x).idx] = none → refused .restoreContext .notFound) ∧
        (∀ en, s.rs.directory[(RecKey.context x).idx] = some en →
          accepted .restoreContext (some (.context x)) en.addr s.rs.append (copy en))) ∧
      (∀ t : Fin 8, c.ops = [byteOf (keyIndex (some (.table t)))] → stager →
        (s.rs.directory[(RecKey.table t).idx] = none → refused .restoreTable .notFound) ∧
        (∀ en, s.rs.directory[(RecKey.table t).idx] = some en →
          accepted .restoreTable (some (.table t)) en.addr s.rs.append (copy en))) ∧
      (c.ops = [] → accepted .compact none s.rs.append s.rs.append [] ∧
        accepted .eraseStore none s.rs.append s.rs.append []))

/-- The end of a save (R117, R118, R167): verified, the directory names the new record, OK is answered with key, address,
length and free words, and STORE-NEARLY-FULL is raised below 4,096 free words; the new record is VALID and reads back as
the saved words, and the state word of the record it replaces, which lies below it, is SUPERSEDED. A verify failure is
WRITE-FAULT with STORE-FAULT, and one of the superseding word still names the new record and sets the full mark. A save
whose session a SOFT reset ended has the same effect unanswered (R128, R168). That all words are written at the
completion is log 8. A save cut off by a reset (R127) leaves a WRITING state that reads ERASED, WRITING or as no state;
once it is written, WRITING until the VALID state is programmed; then WRITING, VALID or no state; and the replaced record
VALID until it is programmed SUPERSEDED, when it reads as before or as intended. Which of the readings of R106 a cut
leaves to each word is log 49. -/
def Obligations.SaveCompletion : Prop :=
  ∀ (dt : Nat) (fault : Option Mishap) (op : Operation) (k : RecKey) (s : State),
    s.held = false → s.rs.op = some op → op.recKey = some k →
    op.kind ∈ ([.saveContext, .saveTable, .saveSettings] : List ReqKind) →
    let n := op.body.length
    let old : List Access :=
      match s.rs.directory[k.idx] with | some e => [.state s.rs.active e.addr 0 .replaced] | none => []
    let as := writeRecord s.rs.active op.addr (keyWord k) (BitVec.ofNat 16 n) (crcWords op.body) op.body ++ old
    let named (r : RecordStore) : RecordStore :=
      { r with directory := upd r.directory k.idx (some ⟨op.addr, n, false⟩) }
    let free (r : RecordStore) : Nat := if r.full then 0 else 32768 - r.append
    let ends (r : RecordStore) (st : Status) (res : List Byte) (notice : Option Detail) : Prop :=
      (∀ d kind seq rq, InFlight s op d kind seq rq →
        exec (.saveCompletion dt fault) s = .next
          ((({ s.elapse dt with rs := r } : State).completedIn op d kind seq rq st res).raiseIf notice)) ∧
      (op.attached = false →
        exec (.saveCompletion dt fault) s = .next
          (({ s.elapse dt with rs := { r with op := none } } : State).raiseIf notice))
    (∀ r, s.rs.perform fault 0 as = (r, none) →
      ends (named r) .ok (byteOf (keyIndex (some k)) :: (bytes2 op.addr ++ bytes2 n ++ bytes2 (free r)))
        (if free r < 4096 then some (.storeNearlyFull (free r) (some k)) else none) ∧
      (Memory.wf erased (s.rs.bank s.rs.active) = true →
        (∀ e, s.rs.directory[k.idx] = some e → e.addr < op.addr) →
        let bank := r.bank s.rs.active
        bankRead bank op.addr = 0x00FF ∧ bankRead bank (op.addr + 1) = keyWord k ∧
        bankRead bank (op.addr + 2) = BitVec.ofNat 16 n ∧ bankRead bank (op.addr + 3) = crcWords op.body ∧
        recordBody bank op.addr n = op.body ∧
        (∀ e, s.rs.directory[k.idx] = some e → bankRead bank e.addr = 0x0000))) ∧
    (∀ r f, s.rs.perform fault 0 as = (r, some f) →
      ends (if f.step < 5 + n then r else { named r with full := true }) .writeFault []
        (some (.storeFault .writeFault f.bank f.addr (some k)))) ∧
    (∀ cut : Mishap, s.rs.load = none → Memory.wf erased (s.rs.bank s.rs.active) = true →
      (∀ a, op.addr ≤ a → bankRead (s.rs.bank s.rs.active) a = 0xFFFF) →
      (∀ e, s.rs.directory[k.idx] = some e →
        e.addr < op.addr ∧ bankRead (s.rs.bank s.rs.active) e.addr = 0x00FF) →
      let left := (s.rs.cut cut).bank s.rs.active
      let state := bankRead left op.addr
      let unreadable (w : Word) : Prop := w ≠ 0xFFFF ∧ w ≠ 0x0FFF ∧ w ≠ 0x00FF ∧ w ≠ 0x0000
      (cut.step = 0 → state = 0xFFFF ∨ state = 0x0FFF ∨ unreadable state) ∧
      (1 ≤ cut.step → cut.step < 4 + n → state = 0x0FFF) ∧
      (4 ≤ cut.step → bankRead left (op.addr + 2) = BitVec.ofNat 16 n) ∧
      (cut.step = 4 + n → state = 0x0FFF ∨ state = 0x00FF ∨ unreadable state) ∧
      (5 + n ≤ cut.step → state = 0x00FF) ∧
      (∀ e, s.rs.directory[k.idx] = some e →
        (cut.step < 5 + n → bankRead left e.addr = 0x00FF) ∧
        (cut.step = 5 + n → bankRead left e.addr = 0x00FF ∨ bankRead left e.addr = 0x0000)))

/-- The end of a restore (R120, R121, R167): a copy whose check word does not match its record is CHECK-FAIL, as is one
that is no image or no curves in form; otherwise the edit buffer takes the image with no validation result, or the
staging area the curves, if the session still owns it, and OK is answered. Curves are in form exactly when they are 3,072
words of 0..4095, and are then the entries in order (R207). A restore whose session a SOFT reset ended only ends (R128,
R168). The results of CHECK-FAIL are laid out by choice (log 23). -/
def Obligations.RestoreCompletions : Prop :=
  (∀ (dt : Nat) (op : Operation) (d : Session) (kind : ReqKind) (seq : Byte) (rq : Fin 8) (s : State),
    InFlight s op d kind seq rq →
    let intact : Prop := bankRead (s.rs.bank s.rs.active) (op.addr + 3) = crcWords op.body
    let ends (cmd : Instr) (t : State) (st : Status) (res : List Byte) : Prop :=
      exec cmd s = .next (t.completedIn op d kind seq rq st res)
    let cmd := Instr.restoreContextCompletion dt
    let tab := Instr.restoreTableCompletion dt
    let t := s.elapse dt
    (op.kind = .restoreContext →
      (¬intact → ends cmd t .checkFail [0]) ∧
      (∀ n, intact → imageCheck op.body = .inl n → ends cmd t .checkFail [1, byteOf n]) ∧
      (∀ f ts, intact → imageCheck op.body = .inr (f, ts) →
        (∀ b, s.ms.edit = some b → b.owner = op.session →
          ends cmd { t with ms := { s.ms with edit := some { b with table := ts, fill := f, result := none } } } .ok
            [byteOf (used ts).length]) ∧
        ((∀ b, s.ms.edit = some b → b.owner ≠ op.session) → ends cmd t .ok [byteOf (used ts).length]))) ∧
    (op.kind = .restoreTable →
      (¬intact → ends tab t .checkFail [0]) ∧
      (intact → curvesOfBody op.body = none → ends tab t .checkFail [1]) ∧
      (∀ curves, intact → curvesOfBody op.body = some curves →
        (∀ u old, s.cu.staging = .owned op.session u old →
          ends tab { t with cu := { s.cu with staging := .owned op.session u curves } } .ok []) ∧
        ((∀ u old, s.cu.staging ≠ .owned op.session u old) → ends tab t .ok [])))) ∧
  (∀ (dt : Nat) (op : Operation) (s : State), s.held = false → s.rs.op = some op → op.attached = false →
    let ended : State := { s.elapse dt with rs := { s.rs with op := none } }
    (op.kind = .restoreContext → exec (.restoreContextCompletion dt) s = .next ended) ∧
    (op.kind = .restoreTable → exec (.restoreTableCompletion dt) s = .next ended)) ∧
  (∀ ws : List Word,
    let inForm : Prop := ws.length = 3072 ∧ ∀ w ∈ ws, w.toNat < 4096
    (¬inForm → curvesOfBody ws = none) ∧
    (inForm → ∃ curves, curvesOfBody ws = some curves ∧ ∀ j w, ws[j]? = some w → curveEntry curves j = w.toNat))

/-- The ends of DELETE-RECORD, ERASE-STORE and COMPACT (R122 to R124, R126, R167): verified, the key has no live record;
or both banks are erased and bank A is ACTIVE at generation 1 with nothing in it; or the other bank, holding the live
records in their address order, is active at the next generation. A verify failure is WRITE-FAULT with STORE-FAULT, and
sets the full mark, leaves no word to write, or leaves the former bank active. Where a SOFT reset has ended the session
the effect and the notice are the same, unanswered (R128, R168). That the STORE-FAULT of a compaction or an erasure has no
key is log 32, the address of a failed erase log 10, and that all accesses are made at the completion log 8. Cut off by a
reset (R127), a deletion leaves the record VALID, SUPERSEDED or of no state; an erasure leaves a header that reads ACTIVE
only as it was, bank A erased while bank B is erased, and then a header of bank A that reads ACTIVE only with generation 1
and no records; and a compaction leaves the former bank the one that the load chooses in steps 1 to 4, and bank X from
step 5 on. Which of the readings of R106 a cut or a failure leaves to each word is log 49. -/
def Obligations.DeleteEraseAndCompactCompletions : Prop :=
  ∀ (dt : Nat) (fault : Option Mishap) (op : Operation) (s : State), s.held = false → s.rs.op = some op →
    let ends (cmd : Instr) (r : RecordStore) (st : Status) (res : List Byte) (notice : Option Detail) : Prop :=
      (∀ d kind seq rq, InFlight s op d kind seq rq →
        exec cmd s = .next
          ((({ s.elapse dt with rs := r } : State).completedIn op d kind seq rq st res).raiseIf notice)) ∧
      (op.attached = false →
        exec cmd s = .next (({ s.elapse dt with rs := { r with op := none } } : State).raiseIf notice))
    let active (c : Cells Word) : Prop := bankRead c 0 = 0xC35A ∧ bankRead c 2 = 0x00FF
    let failed (f : VerifyFailure) (k : Option RecKey) : Option Detail :=
      some (.storeFault .writeFault f.bank f.addr k)
    (∀ k e, op.kind = .deleteRecord → op.recKey = some k → s.rs.directory[k.idx] = some e →
      let as : List Access := [.state s.rs.active e.addr 0 .ordinary]
      (∀ r, s.rs.perform fault 0 as = (r, none) →
        ends (.deleteCompletion dt fault) { r with directory := upd r.directory k.idx none } .ok [] none) ∧
      (∀ r f, s.rs.perform fault 0 as = (r, some f) →
        ends (.deleteCompletion dt fault) { r with full := true } .writeFault [] (failed f (some k))) ∧
      (∀ cut : Mishap, s.rs.load = none → Memory.wf erased (s.rs.bank s.rs.active) = true →
        bankRead (s.rs.bank s.rs.active) e.addr = 0x00FF →
        let w := bankRead ((s.rs.cut cut).bank s.rs.active) e.addr
        (cut.step = 0 → w = 0x00FF ∨ w = 0x0000 ∨ w ≠ 0xFFFF ∧ w ≠ 0x0FFF) ∧ (0 < cut.step → w = 0x0000))) ∧
    (op.kind = .eraseStore →
      let as : List Access :=
        [.erase .A, .erase .B, .program .A 0 0xC35A, .program .A 1 1, .state .A 2 0x00FF .ordinary]
      let empty (r : RecordStore) (append : Nat) (full : Bool) : RecordStore :=
        { r with active := .A, generation := 1, append := append, full := full,
                 directory := Vector.replicate 13 none }
      (∀ r, s.rs.perform fault 0 as = (r, none) →
        ends (.eraseStoreCompletion dt fault) (empty r 8 false) .ok [] none) ∧
      (∀ r f, s.rs.perform fault 0 as = (r, some f) →
        ends (.eraseStoreCompletion dt fault) (empty r 32768 true) .writeFault [] (failed f none)) ∧
      (∀ cut : Mishap, s.rs.load = none →
        let left := s.rs.cut cut
        let kept (before after : Cells Word) : Prop :=
          active after → active before ∧ bankRead after 1 = bankRead before 1
        (cut.step = 0 → left.bankB = s.rs.bankB ∧ kept s.rs.bankA left.bankA) ∧
        (cut.step = 1 → left.bankA = [] ∧ kept s.rs.bankB left.bankB) ∧
        (2 ≤ cut.step → left.bankB = [] ∧
          (active left.bankA → bankRead left.bankA 1 = 1 ∧ ∀ a, 8 ≤ a → bankRead left.bankA a = 0xFFFF)))) ∧
    (op.kind = .compact →
      let x : BankId := match s.rs.active with | .A => .B | .B => .A
      let g : Word := if s.rs.generation = 65535 then 1 else s.rs.generation + 1
      let body : List Access :=
        [.erase x, .program x 0 0xC35A, .program x 1 g, .state x 2 0x0FFF .filling] ++
          copyRecords (s.rs.bank s.rs.active) x 8 s.rs.liveByAddr ++ [.state x 2 0x00FF .filled]
      let as : List Access := body ++ [.state s.rs.active 2 0 .ordinary]
      let moved := movedEntries 8 s.rs.liveByAddr
      let append := 8 + (moved.map fun e => 4 + e.2.len).sum
      let switched (r : RecordStore) : RecordStore :=
        { r with active := x, generation := g, full := false, append := append,
                 directory := moved.foldl (fun v e => upd v e.1.idx (some e.2)) (Vector.replicate 13 none) }
      (∀ r, s.rs.perform fault 0 as = (r, none) →
        ends (.compactCompletion dt fault) (switched r) .ok
          (bankCode x :: (wordBytes g ++ bytes2 (32768 - append))) none) ∧
      (∀ r f, s.rs.perform fault 0 as = (r, some f) →
        ends (.compactCompletion dt fault) (if f.step < body.length then r else switched r) .writeFault []
          (failed f none)) ∧
      (∀ cut : Mishap, s.rs.load = none → Memory.wf erased s.rs.bankA = true → Memory.wf erased s.rs.bankB = true →
        s.rs.choice = some s.rs.active → bankRead (s.rs.bank s.rs.active) 1 = s.rs.generation →
        let left := s.rs.cut cut
        (cut.step < body.length → left.bank s.rs.active = s.rs.bank s.rs.active ∧ left.choice = some s.rs.active) ∧
        (body.length ≤ cut.step → left.choice = some x)))

/-! ## Enumeration and RESET -/

/-- An ENUMERATE with destination 0 (R194, R195): it is not taken, and forwarded as it is, where its operands are not in
form, the cabinet has an address and FORCE is no, a FULL reset is pending, or no response slot is free; taken with A up
to 250, the cabinet has the address A, answers OK with it, raises ADDRESS-ASSIGNED, and forwards A + 1; taken with a
greater A it answers NO-ADDRESS and forwards it as it is. Addressed or in a session it is BAD-OPERAND (R196). That one
not taken still does what every intact packet does on arrival is log 42, and that the FRAME-LOCK-CHANGED of its own
packet, taken in NO-SIGNAL, is raised before ADDRESS-ASSIGNED is log 31. -/
def Obligations.EnumerationGivesTheAddress : Prop :=
  ∀ (dt : Nat) (c : Ctl) (s : State), s.Receives dt →
    let code := reqCode .enumerate
    let passed (c : Ctl) (s : State) : State := s.forward (controlPacket code c)
    (c.dest = 0 → enumerateOperands c.ops = none → exec (.enumerate dt c) s = .next (passed c (s.elapse dt).arrive)) ∧
    (∀ (n : Byte) (force : Bool), c.dest = 0 → n ≠ 0 → c.ops = [n, yesNo force] →
      (s.address ≠ 0 ∧ force = false ∨ s.fullReset ≠ none ∨ (∀ i : Fin 8, s.rq.slots[i] ≠ .free) →
        exec (.enumerate dt c) s = .next (passed c (s.elapse dt).arrive)) ∧
      (∀ rq, s.address = 0 ∨ force = true → s.fullReset = none → s.rq.freeSlot = some rq →
        let s0 := s.received dt code c rq
        (n.toNat ≤ 250 →
          exec (.enumerate dt c) s = .next
            (passed { c with ops := [n + 1, yesNo force] }
              ((({ s0 with address := n } : State).answered code c rq .ok [n]).raise
                (.addressAssigned n s.address)))) ∧
        (250 < n.toNat →
          exec (.enumerate dt c) s = .next (passed c (s0.answered code c rq .noAddress [s.address]))))) ∧
    (∀ rq, Sessionless dt c s rq →
      exec (.enumerate dt c) s = .next ((s.received dt code c rq).answered code c rq .badOperand [])) ∧
    (∀ rq i d, InTurn dt c s rq i d →
      AnsweredInSession .enumerate (.enumerate dt c) dt c s rq i d .badOperand (fun _ => []) id)

/-- RESET (R199 to R201), from a session or sessionless: SOFT empties the response queue and the notice slots, frees every
session, releases the edit buffer and an owned staging area with EDIT-ABANDONED, leaves a transmission and a store
operation to end unreported, and answers OK; FULL answers OK and is pending, and takes effect when its response has been
sent, with the power-on values but the address. The order of the two EDIT-ABANDONED notices is log 39, the slot of the
SOFT reset's response, its own, log 11, the levels of the input pins through a FULL reset log 5, the store's items before
its load log 7, and the moment at which what arrives is lost log 43. That the FRAME-LOCK-CHANGED of the RESET's own packet,
taken in NO-SIGNAL, is raised before a SOFT reset and so emptied by it, ahead of EDIT-ABANDONED, is log 31. -/
def Obligations.ResetSoftAndFull : Prop :=
  (∀ (dt : Nat) (c : Ctl) (rq : Fin 8) (s : State), (Sessionless dt c s rq ∨ ∃ i d, InTurn dt c s rq i d) →
    let s0 := s.received dt (reqCode .reset) c rq
    let soft : State :=
      { s0 with
          rq := ⟨Vector.replicate 8 .free, []⟩,
          ns := ⟨s0.ns.slots.map fun sl => ⟨sl.cls, none⟩, []⟩,
          sessions := Vector.replicate 4 none,
          ms := (match s.ms.edit with | some e => s.ms.withoutEditOf e.owner | none => s.ms),
          cu := (match s.cu.staging with | .owned key _ _ => s.cu.withoutStagingOf key | .free | .held .. => s.cu),
          up := { s.up with sending := s.up.sending.map fun x =>
                    match x.source with | .response _ => ⟨.detached, x.bytes⟩ | _ => x },
          rs := { s.rs with op := s.rs.op.map fun op => { op with attached := false } } }
    let buffer : Option Detail := s.ms.edit.map fun e => .bufferAbandoned true e.target e.prior e.owner
    let staging : Option Detail :=
      match s.cu.staging with | .owned key t _ => some (.stagingAbandoned true t key) | .free | .held .. => none
    (c.ops = [0] →
      exec (.reset dt c) s = .next (((soft.raiseIf buffer).raiseIf staging).answered (reqCode .reset) c rq .ok [0])) ∧
    (c.ops = [1] →
      exec (.reset dt c) s = .next
        (({ s0 with fullReset := some rq } : State).answered (reqCode .reset) c rq .ok [1]))) ∧
  (∀ (dt : Nat) (cut : Mishap) (i : Fin 8) (bytes : List Byte) (s : State),
    s.held = false → s.fullReset = some i → s.up.sending = some ⟨.response i, bytes⟩ →
    let now := s.now + dt
    let rs := s.rs.cut cut
    exec (.transmissionCompletion dt cut) s = .next
      { State.reset with
          now := now, address := s.address, ports := s.ports.map fun p => Port.initial p.ready,
          cadenceTimer := some (now + 16666), rs := RecordStore.initial rs.bankA rs.bankB,
          up := Uplink.initial s.up.holdIn now, pending := s.pending, resetAt := some now })

/-! ## Tile ports -/

/-- Transfers and stalls (R90, R92): a port replaced starts the transfer of its head if it is enabled, READY is high and
none is in progress, and runs the 5 ms stall timer exactly while lines wait with none in transfer and READY low; READY
rising clears the stall flag; a transfer's end removes the head and counts the rows of a trunk line delivered; the
timer's expiry sets the flag and raises PORT-STALLED. -/
def Obligations.PortsTransferAndStall : Prop :=
  ∀ (dt : Nat) (i : Fin 8) (s : State),
    let p := s.ports[i]
    let t := s.elapse dt
    (∀ q : Port,
      (∀ l rest, q.config.enabled = true → q.transferring = false → q.ready = true → q.queue = l :: rest →
        s.setPort i q =
          { s with ports := upd s.ports i { q with transferring := true, stallTimer := none },
                   out := s.out ++ [.chain i l] }) ∧
      (q.transferring = false → q.ready = false → q.queue ≠ [] →
        s.setPort i q =
          { s with ports := upd s.ports i
                     { q with stallTimer :=
                         if q.stallTimer = none ∧ q.stalled = false then some (s.now + 5000) else q.stallTimer } }) ∧
      (q.transferring = true ∨ q.queue = [] ∨ (q.ready = true ∧ q.config.enabled = false) →
        s.setPort i q = { s with ports := upd s.ports i { q with stallTimer := none } })) ∧
    exec (.readyRises dt i) s = .next (t.setPort i { p with ready := true, stalled := false }) ∧
    exec (.readyFalls dt i) s = .next (t.setPort i { p with ready := false }) ∧
    (∀ l rest, s.held = false → p.transferring = true → p.queue = l :: rest →
      let q : Port := { p with queue := rest, transferring := false }
      let more (y : Tally) : Tally := { y with delivered := y.delivered + l.rows.length }
      exec (.transferCompletion dt i) s = .next (t.setPort i
        (match l.source with
         | .trunk _ .current => { q with current := q.current.map more }
         | .trunk _ .last => { q with last := q.last.map more }
         | .trunk _ .retired | .policy | .pattern => q))) ∧
    (∀ t0, s.held = false → p.stallTimer = some t0 →
      let head : Option Word := p.queue.head?.bind fun l =>
        match l.source with | .trunk f _ => some f | .policy | .pattern => none
      exec (.stallTimerExpiry dt i) s = .next
        (({ t with now := max (s.now + dt) t0,
                   ports := upd s.ports i { p with stallTimer := none, stalled := true } } : State).raise
          (.portStalled i p.queue.length head)))

/-- Generated frames (R97 to R99, R102, R103): at a cadence expiry the timer restarts with the period in force, and each
enabled port without one starts a pattern frame if it is forced, or, while the loss policy is in force, a policy frame of
its policy, with a copy of its chain list and fill colour. A port places its lines one by one, from the lowest covered
raster line up, while there is room. A generated line has one row for each copied tile that covers it, of pixels by the
pattern: the fill colour, eight bars, a ramp, or a grid with the tile's position mark. That the ports take their turn in
ascending order is log 16, that a placing at a full queue does nothing log 3, and the rows' own kind log 44. -/
def Obligations.PortsGenerateFrames : Prop :=
  ((List.range 16).map cadenceRate = [24, 25, 30, 48, 50, 60, 72, 75, 90, 96, 100, 120, 144, 150, 200, 240] ∧
   ∀ (dt t0 : Nat) (s : State), s.held = false → s.cadenceTimer = some t0 →
    let now := max (s.now + dt) t0
    let period := match s.ft.reference with | some r => r | none => 1000000 / cadenceRate s.cadence
    exec (.cadenceExpiry dt) s = .next
      (([0, 1, 2, 3, 4, 5, 6, 7] : List (Fin 8)).foldl State.cadenceAt
        { s.elapse dt with now := now, cadenceTimer := some (now + period) })) ∧
  (∀ (i : Fin 8) (s : State),
    let p := s.ports[i]
    let context : Option (Fin 4) :=
      match s.ms.selection with | .none => none | .context c => some c | .sequence es j _ => es[j]?.map SeqEntry.ctx
    let shown : List (Nat × Tile) × Rgb :=
      match context with | some c => (used s.ms.contexts[c].table, s.ms.contexts[c].fill) | none => ([], ⟨0, 0, 0⟩)
    let starts (policy : Bool) (kind : Pattern) : Prop :=
      ∃ tiles, tiles.Perm (shown.1.filter fun e => decide (e.2.port = i)) ∧
        tiles.Pairwise (fun a b : Nat × Tile => a.2.pos ≤ b.2.pos) ∧
        let g : GenFrame := { policy := policy, kind := kind, tiles := tiles, fill := shown.2, nextY := 0 }
        s.cadenceAt i =
          s.setPort i { p with gen := (if g.nextLine = none then none else some g), genCount := p.genCount + 1 }
    let lost : Prop := p.config.forced = none ∧ p.releasePending = false ∧
      (s.ft.lock = .lost ∨ s.ft.lock = .noSignal) ∧ s.ft.frame = none
    let able : Prop := p.config.enabled = true ∧ s.phase = .running ∧ p.gen = none
    (¬able → s.cadenceAt i = s) ∧
    (∀ k, able → p.config.forced = some k → starts false k) ∧
    (able → lost → p.config.loss = .dark → s.cadenceAt i = s) ∧
    (able → lost → p.config.loss = .fill → starts true .solid) ∧
    (able → lost → p.config.loss = .pattern → starts true p.config.pattern) ∧
    (able → p.config.forced = none → ¬lost → s.cadenceAt i = s)) ∧
  (∀ (dt : Nat) (i : Fin 8) (g : GenFrame) (y : Nat) (s : State),
    s.held = false → s.ports[i].gen = some g → g.nextLine = some y →
    let p := s.ports[i]
    let g' : GenFrame := { g with nextY := y + 1 }
    (p.queue.length < 8 →
      exec (.generatedLinePlaced dt i) s = .next ((s.elapse dt).setPort i
        { p with queue := p.queue ++ [g.line y], gen := if g'.nextLine = none then none else some g' })) ∧
    (8 ≤ p.queue.length → exec (.generatedLinePlaced dt i) s = .next ((s.elapse dt).setPort i p))) ∧
  (∀ g : GenFrame, (∀ e ∈ g.tiles, 1 ≤ e.2.h) →
    let covered (y : Nat) : Prop := ∃ e ∈ g.tiles, e.2.y ≤ y ∧ y < e.2.y + e.2.h
    (g.nextLine = none ↔ ∀ y, g.nextY ≤ y → ¬covered y) ∧
    (∀ y, g.nextLine = some y ↔ g.nextY ≤ y ∧ covered y ∧ ∀ z, g.nextY ≤ z → z < y → ¬covered z)) ∧
  (∀ (g : GenFrame) (y : Nat),
    g.line y =
      { source := if g.policy then .policy else .pattern, y := y,
        rows := (g.tiles.filter fun e => decide (e.2.y ≤ y ∧ y < e.2.y + e.2.h)).map fun e : Nat × Tile =>
          let j := if e.2.mirrorV then e.2.h - 1 - (y - e.2.y) else y - e.2.y
          { slot := e.1, pos := e.2.pos.1, index := j, kind := .generated,
            pixels := (List.range e.2.w).map (patternPixel g.kind g.fill e.2 j) } }) ∧
  (∀ (f : Rgb) (t : Tile) (j i : Nat), i < t.w →
    let white : Rgb := ⟨4095, 4095, 4095⟩
    let marked : Prop := j = t.h / 2 ∧ 2 ≤ i ∧ i ≤ 2 + t.pos.1
    let drawn : Prop := i = 0 ∨ i = t.w - 1 ∨ j = 0 ∨ j = t.h - 1 ∨ marked
    let level : Nat := if t.w = 1 then 4095 else 4095 * i / (t.w - 1)
    patternPixel .solid f t j i = f ∧
    patternPixel .ramp f t j i = ⟨level, level, level⟩ ∧
    (j < t.h → (drawn → patternPixel .grid f t j i = white) ∧ (¬drawn → patternPixel .grid f t j i = ⟨0, 0, 0⟩)) ∧
    (∀ k : Fin 8, k.1 * t.w / 8 ≤ i → i < (k.1 + 1) * t.w / 8 →
      patternPixel .bars f t j i =
        ([white, ⟨4095, 4095, 0⟩, ⟨0, 4095, 4095⟩, ⟨0, 4095, 0⟩, ⟨4095, 0, 4095⟩, ⟨4095, 0, 0⟩, ⟨0, 0, 4095⟩,
          ⟨0, 0, 0⟩] : List Rgb)[k]))

/-! ## The return lane -/

/-- The Downstream port (R140 to R143): a packet's beginning may raise the HOLD output; an intact one makes the link UP,
starts the 2 ms timer unless HOLD is high, and joins the buffer unless it is an IDLE or four are there, when it is dropped
as OVERFLOW; the timer's expiry makes the link DOWN. A change of the link is reported. HOLD is high with four packets,
or with three and one in reception. That DOWNSTREAM-LINK is raised before the OVERFLOW of the same packet is log 30, and
that an IDLE with four packets buffered raises no OVERFLOW is log 45. A reset loses the packet in reception (R148): a
packet whose reception is not in progress is lost, which is log 3. -/
def Obligations.DownstreamPortTakesReturnPackets : Prop :=
  ∀ (dt : Nat) (bytes : List Byte) (s : State), s.held = false →
    let received : Prop := s.resetAt ≠ some (s.now + dt)
    let hold (n : Nat) (receiving : Bool) : Prop := 4 ≤ n ∨ (n = 3 ∧ receiving = true)
    let n := s.dn.buffer.length
    let heard (buffer : List (List Byte)) : State :=
      let t : State :=
        { s.elapse dt with
            dn := { up := true, buffer := buffer, receiving := false,
                    linkTimer := if 4 ≤ buffer.length then none else some (s.now + dt + 2000) } }
      if s.dn.up = true then t else t.raise (.downstreamLink true)
    (s.holdOut = true ↔ hold n s.dn.receiving) ∧
    (received → exec (.returnReceptionBegins dt) s = .next
      { s.elapse dt with
          dn := { s.dn with
                    receiving := true,
                    linkTimer := if s.dn.up = true ∧ s.dn.receiving = false ∧ n = 3 then none else s.dn.linkTimer } }) ∧
    (s.dn.receiving = false →
      exec (.returnPacket dt bytes) s = .next (s.elapse dt) ∧ exec (.returnIdle dt) s = .next (s.elapse dt)) ∧
    (received → s.dn.receiving = true → n < 4 →
      exec (.returnPacket dt bytes) s = .next (heard (s.dn.buffer ++ [bytes]))) ∧
    (received → s.dn.receiving = true → 4 ≤ n → exec (.returnPacket dt bytes) s = .next
      ((heard s.dn.buffer).raise (.trunkIntegrity .return .overflow (bytes.headD 0)))) ∧
    (received → s.dn.receiving = true → exec (.returnIdle dt) s = .next (heard s.dn.buffer)) ∧
    (∀ t0, s.dn.linkTimer = some t0 →
      exec (.linkTimerExpiry dt) s = .next
        (({ s.elapse dt with now := max (s.now + dt) t0,
                             dn := { s.dn with up := false, linkTimer := none } } : State).raise
          (.downstreamLink false)))

/-- The Upstream port's beginnings (R144 to R146, R183, R184): with no transmission in progress and HOLD low it begins the
oldest filled response, else the oldest notice of the lowest class, or the buffer's head, by turns where both sources
offer; with neither, an IDLE that is due. The 200 microsecond interval restarts at each beginning and makes an IDLE due
at its end. When the next chosen packet begins is a choice of the model (log 12). Its bytes are those of R177, R185 and
R203: a RESPONSE's six fields and results, a NOTICE's kind, class, count and first and latest details, the buffered packet
as it came, or an IDLE; codes are those of R205 and the details those of R206, with 0 in a byte that does not apply to the
case at hand (log 33). -/
def Obligations.UpstreamPortBeginsPackets : Prop :=
  (∀ (dt : Nat) (s : State),
    let t := s.elapse dt
    let begun (t : State) (src : SendSource) (turn : Turn) : State :=
      let bytes := s.packetOf src
      { t with
          ns := (match src with
            | .notice k => ⟨upd s.ns.slots k.idx
                ⟨s.ns.slots[k.idx].cls,
                 s.ns.slots[k.idx].body.map fun p : Pending => { p with sending := true, carry := none }⟩, s.ns.list⟩
            | _ => s.ns),
          up := { t.up with sending := some ⟨src, bytes⟩, turn := turn, idleDue := false,
                            idleTimer := some (t.now + 200) },
          out := [.upstream bytes] }
    let nothing : Prop := s.localOffer = none ∧ s.dn.buffer = []
    let orIdle (t : State) : State :=
      if s.up.sending = none ∧ t.up.holdIn = false ∧ t.up.idleDue = true ∧ s.localOffer = none ∧ s.dn.buffer = [] then
        begun t .idle t.up.turn
      else t
    (∀ i rest r, s.rq.order = i :: rest → s.rq.slots[i] = .filled r → s.localOffer = some (.response i)) ∧
    (s.rq.order = [] → s.address = 0 → s.localOffer = none) ∧
    (∀ before k after, s.rq.order = [] → s.address ≠ 0 → s.ns.list = before ++ k :: after →
      let cls (x : NoticeKind) : Fin 4 := s.ns.slots[x.idx].cls
      cls k ≠ 3 → (∀ x ∈ before, cls k < cls x) → (∀ x ∈ after, cls k ≤ cls x) →
      s.localOffer = some (.notice k)) ∧
    (s.held = false → s.up.sending = none → s.up.holdIn = false →
      (∀ l, s.localOffer = some l → s.dn.buffer = [] ∨ s.up.turn = .toLocal →
        exec (.transmissionBegins dt) s = .next (begun t l .toPass)) ∧
      (s.dn.buffer ≠ [] → s.localOffer = none ∨ s.up.turn = .toPass →
        exec (.transmissionBegins dt) s = .next (begun t .pass .toLocal)) ∧
      (nothing → exec (.transmissionBegins dt) s = .next (orIdle t))) ∧
    (s.held = false → s.up.sending ≠ none ∨ s.up.holdIn = true → exec (.transmissionBegins dt) s = .next t) ∧
    (∀ t0, s.held = false → s.up.idleTimer = some t0 →
      exec (.idleIntervalExpiry dt) s = .next
        (orIdle { t with now := max (s.now + dt) t0,
                         up := { s.up with idleTimer := none, idleDue := true } })) ∧
    exec (.holdInputRises dt) s = .next { t with up := { s.up with holdIn := true } } ∧
    exec (.holdInputFalls dt) s = .next (orIdle { t with up := { s.up with holdIn := false } }) ∧
    (∀ i r, s.rq.slots[i] = .filled r →
      s.packetOf (.response i) =
        packet 0x11 ([r.source, r.key, r.seq, r.kind, statusCode r.status, byteOf r.results.length] ++ r.results)) ∧
    (∀ k p, s.ns.slots[k.idx].body = some p →
      s.packetOf (.notice k) =
        packet 0x12 ([s.address, byteOf k.idx.1, byteOf s.ns.slots[k.idx].cls.1, byteOf p.count] ++
          detailBytes p.first ++ detailBytes p.latest)) ∧
    (∀ b rest, s.dn.buffer = b :: rest → s.packetOf .pass = b) ∧
    s.packetOf .idle = packet 0x10 []) ∧
  (∀ (kind : Byte) (fields : List Byte),
    let body := [kind] ++ bytes2 (5 + fields.length) ++ fields
    packet kind fields = body ++ wordBytes (crc16 body)) ∧
  (([.ok, .badOperand, .notOwner, .locked, .inUse, .notReady, .validateFail, .notFound, .busy, .inProgress, .outOfSequence,
     .noSession, .unknownRequest, .starting, .noCursor, .storeFull, .writeFault, .checkFail, .noAddress] :
      List Status).map statusCode = [0, 1, 2, 3, 4, 5, 6, 7, 8, 9, 10, 11, 12, 13, 14, 15, 16, 17, 18] ∧
   ([.frameLockChanged, .frameDamaged, .geometryMismatch, .portOverrun, .portStalled, .changeApplied, .switchSuperseded,
     .editAbandoned, .sessionExpired, .storeFault, .storeNearlyFull, .startupComplete, .trunkIntegrity, .downstreamLink,
     .contextLoadFailed, .addressAssigned] : List NoticeKind).map NoticeKind.idx =
      [0, 1, 2, 3, 4, 5, 6, 7, 8, 9, 10, 11, 12, 13, 14, 15] ∧
   ([.openSession, .closeSession, .keep, .readStatus, .cursorSet, .cursorWrite, .cursorRead, .readTile, .openEdit,
     .setTile, .clearTile, .setFill, .checkEdit, .closeEdit, .abandonEdit, .selectContext, .selectSequence,
     .cancelSelect, .hold, .release, .beginTable, .endTable, .abandonTable, .setPort, .forcePattern, .setCadence,
     .readPort, .saveContext, .saveTable, .saveSettings, .restoreContext, .restoreTable, .deleteRecord, .compact,
     .eraseStore, .readStoreStatus, .setNoticeClass, .enumerate, .reset] : List ReqKind).map reqCode =
      ((List.range 39).map fun n => byteOf (n + 1)) ∧
   ([none, some .settings, some (.context 0), some (.context 1), some (.context 2), some (.context 3), some (.table 0),
     some (.table 1), some (.table 2), some (.table 3), some (.table 4), some (.table 5), some (.table 6),
     some (.table 7)] : List (Option RecKey)).map keyIndex = List.range 14) ∧
  (let lock (x : LockState) : Byte :=
     match x with | .noSignal => 0 | .acquiring => 1 | .locked => 2 | .holdover => 3 | .lost => 4
   let reason (x : Reason) : Byte := match x with | .range => 1 | .duplicatePosition => 2 | .gap => 3 | .portBudget => 4
   let prior (x : PriorStatus) : Byte := match x with | .blank => 0 | .ready => 1
   let bank (x : BankId) : Nat := match x with | .A => 0 | .B => 1
   let key (x : Option RecKey) : Nat :=
     match x with | none => 0 | some .settings => 1 | some (.context c) => c.1 + 2 | some (.table t) => t.1 + 6
   let bit (b : Bool) (n : Nat) : Nat := if b then n else 0
   let issuer (x : Issuer) : Byte × Bool :=
     match x with | .session k => (k, false) | .sessionless => (0, false) | .broadcast => (0, true)
   ∀ d : Detail, detailBytes d =
     match d with
     | .lockChanged old new last => [lock old, lock new] ++ wordBytes last
     | .frameDamaged f d =>
       wordBytes f ++ [byteOf (bit d.range 1 + bit d.order 2 + bit d.lostRuns 4 + bit d.truncated 8), 0]
     | .badGeometry f => wordBytes f ++ [16, 0]
     | .geometryMismatch f n => wordBytes f ++ [byteOf n, 0]
     | .portOverrun p f y => bytes2 (8192 * p.1 + y) ++ wordBytes f
     | .portStalled p n (some f) => [byteOf p.1, byteOf n] ++ wordBytes f
     | .portStalled p n none => [byteOf p.1, byteOf (128 + n), 0, 0]
     | .changeApplied f c t => wordBytes f ++
         [(match c with | some c => byteOf c.1 | none => 255), (match t with | some t => byteOf t.1 | none => 255)]
     | .switchSuperseded old new seq =>
       [(issuer old).1, (issuer new).1, byteOf (bit (issuer old).2 1 + bit (issuer new).2 2 + bit seq 4), 0]
     | .bufferAbandoned soft c p k => [byteOf (bit soft 128), byteOf c.1, prior p, k]
     | .stagingAbandoned soft t k => [byteOf (1 + bit soft 128), byteOf t.1, 0, k]
     | .sessionExpired k n last => [k, byteOf n.1, last, 0]
     | .storeFault r b a k =>
       [byteOf ((match r with | .writeFault => 0 | .checkFail => 64 | .badContent => 128 | .scanEnded => 192) +
         32 * bank b + key k)] ++ bytes2 a ++ [0]
     | .storeNearlyFull n k => bytes2 n ++ [byteOf (key k), 0]
     | .startupComplete b g cs ts =>
       [byteOf (bank b + bit cs[0] 16 + bit cs[1] 32 + bit cs[2] 64 + bit cs[3] 128)] ++ wordBytes g ++
         [byteOf (bit ts[0] 1 + bit ts[1] 2 + bit ts[2] 4 + bit ts[3] 8 + bit ts[4] 16 + bit ts[5] 32 + bit ts[6] 64 +
           bit ts[7] 128)]
     | .trunkIntegrity lane r kind =>
       [(match lane with | .forward => 0 | .return => 1),
        (match r with | .checkWord => 0 | .length => 1 | .overflow => 2), kind, 0]
     | .downstreamLink up => [byteOf (bit up 1), 0, 0, 0]
     | .contextLoadFailed c (.validation r n) => [byteOf c.1, reason r, byteOf n, 0]
     | .contextLoadFailed c .checkFail => [byteOf c.1, 5, 0, 0]
     | .contextLoadFailed c .startSelection => [byteOf c.1, 6, 0, 0]
     | .addressAssigned new before => [new, before, 0, 0])

/-- The end of a transmission (R147, R178, R187): a response's slot becomes free; a notice's slot becomes EMPTY, or takes
its carry as a new pending notice; a pass-through packet leaves the buffer, which may lower the HOLD output and start the
link timer; a packet taken away from its source, or an IDLE, ends with nothing to remove. That no other packet and no due IDLE
begins at that moment is log 12. -/
def Obligations.TransmissionEndsAtItsSource : Prop :=
  ∀ (dt : Nat) (cut : Mishap) (x : Sending) (s : State),
    s.held = false → s.up.sending = some x → s.fullReset = none →
    let ended : State := { s.elapse dt with up := { s.up with sending := none } }
    let cmd := Instr.transmissionCompletion dt cut
    (∀ i, x.source = .response i →
      exec cmd s = .next
        { ended with rq := ⟨upd s.rq.slots i .free, s.rq.order.filter fun j => decide (j ≠ i)⟩ }) ∧
    (∀ k p, x.source = .notice k → s.ns.slots[k.idx].body = some p →
      let cls := s.ns.slots[k.idx].cls
      (p.sending = true → p.carry = none →
        exec cmd s = .next
          { ended with ns := ⟨upd s.ns.slots k.idx ⟨cls, none⟩, s.ns.list.filter fun j => decide (j ≠ k)⟩ }) ∧
      (∀ y, p.sending = true → p.carry = some y →
        exec cmd s = .next
          { ended with ns := ⟨upd s.ns.slots k.idx ⟨cls, some ⟨y.count, y.first, y.latest, false, none⟩⟩, s.ns.list⟩ }) ∧
      (p.sending = false → exec cmd s = .next ended)) ∧
    (∀ k, x.source = .notice k → s.ns.slots[k.idx].body = none → exec cmd s = .next ended) ∧
    (x.source = .pass →
      let buffer := s.dn.buffer.drop 1
      let falls : Prop := s.dn.up = true ∧
        (s.dn.buffer.length = 4 ∧ s.dn.receiving = false ∨ s.dn.buffer.length = 3 ∧ s.dn.receiving = true)
      exec cmd s = .next
        { ended with dn := { s.dn with buffer := buffer,
                                       linkTimer := if falls then some (s.now + dt + 2000) else s.dn.linkTimer } }) ∧
    (x.source = .idle ∨ x.source = .detached → exec cmd s = .next ended)
end

