-- ==== Sys2Proof/Laws/State.lean ====
section
/-!
SUPPORT. What each shared update of the state leaves as it was, one lemma for each field, so that no proof unfolds a
record update.
-/

namespace Sys2Proof.Machine

-- One theorem after another: as many at once as the whole package holds would need a stack each.
set_option Elab.async false

variable (s : State)

/-! ## `State.elapse` -/

@[simp] theorem State.elapse_now (dt : Nat) : (s.elapse dt).now = s.now + dt := rfl
@[simp] theorem State.elapse_held (dt : Nat) : (s.elapse dt).held = s.held := rfl
@[simp] theorem State.elapse_phase (dt : Nat) : (s.elapse dt).phase = s.phase := rfl
@[simp] theorem State.elapse_address (dt : Nat) : (s.elapse dt).address = s.address := rfl
@[simp] theorem State.elapse_fullReset (dt : Nat) : (s.elapse dt).fullReset = s.fullReset := rfl
@[simp] theorem State.elapse_resetAt (dt : Nat) : (s.elapse dt).resetAt = s.resetAt := rfl
@[simp] theorem State.elapse_sessions (dt : Nat) : (s.elapse dt).sessions = s.sessions := rfl
@[simp] theorem State.elapse_rq (dt : Nat) : (s.elapse dt).rq = s.rq := rfl
@[simp] theorem State.elapse_ns (dt : Nat) : (s.elapse dt).ns = s.ns := rfl
@[simp] theorem State.elapse_ms (dt : Nat) : (s.elapse dt).ms = s.ms := rfl
@[simp] theorem State.elapse_cu (dt : Nat) : (s.elapse dt).cu = s.cu := rfl
@[simp] theorem State.elapse_ft (dt : Nat) : (s.elapse dt).ft = s.ft := rfl
@[simp] theorem State.elapse_te (dt : Nat) : (s.elapse dt).te = s.te := rfl
@[simp] theorem State.elapse_ports (dt : Nat) : (s.elapse dt).ports = s.ports := rfl
@[simp] theorem State.elapse_cadence (dt : Nat) : (s.elapse dt).cadence = s.cadence := rfl
@[simp] theorem State.elapse_cadenceTimer (dt : Nat) : (s.elapse dt).cadenceTimer = s.cadenceTimer := rfl
@[simp] theorem State.elapse_rs (dt : Nat) : (s.elapse dt).rs = s.rs := rfl
@[simp] theorem State.elapse_up (dt : Nat) : (s.elapse dt).up = s.up := rfl
@[simp] theorem State.elapse_dn (dt : Nat) : (s.elapse dt).dn = s.dn := rfl
@[simp] theorem State.elapse_out (dt : Nat) : (s.elapse dt).out = [] := rfl
@[simp] theorem State.elapse_pending (dt : Nat) : (s.elapse dt).pending = s.pending := rfl

/-! ## `State.reach` -/

@[simp] theorem State.reach_now (t : Nat) : (s.reach t).now = max s.now t := rfl
@[simp] theorem State.reach_held (t : Nat) : (s.reach t).held = s.held := rfl
@[simp] theorem State.reach_phase (t : Nat) : (s.reach t).phase = s.phase := rfl
@[simp] theorem State.reach_address (t : Nat) : (s.reach t).address = s.address := rfl
@[simp] theorem State.reach_fullReset (t : Nat) : (s.reach t).fullReset = s.fullReset := rfl
@[simp] theorem State.reach_resetAt (t : Nat) : (s.reach t).resetAt = s.resetAt := rfl
@[simp] theorem State.reach_sessions (t : Nat) : (s.reach t).sessions = s.sessions := rfl
@[simp] theorem State.reach_rq (t : Nat) : (s.reach t).rq = s.rq := rfl
@[simp] theorem State.reach_ns (t : Nat) : (s.reach t).ns = s.ns := rfl
@[simp] theorem State.reach_ms (t : Nat) : (s.reach t).ms = s.ms := rfl
@[simp] theorem State.reach_cu (t : Nat) : (s.reach t).cu = s.cu := rfl
@[simp] theorem State.reach_ft (t : Nat) : (s.reach t).ft = s.ft := rfl
@[simp] theorem State.reach_te (t : Nat) : (s.reach t).te = s.te := rfl
@[simp] theorem State.reach_ports (t : Nat) : (s.reach t).ports = s.ports := rfl
@[simp] theorem State.reach_cadence (t : Nat) : (s.reach t).cadence = s.cadence := rfl
@[simp] theorem State.reach_cadenceTimer (t : Nat) : (s.reach t).cadenceTimer = s.cadenceTimer := rfl
@[simp] theorem State.reach_rs (t : Nat) : (s.reach t).rs = s.rs := rfl
@[simp] theorem State.reach_up (t : Nat) : (s.reach t).up = s.up := rfl
@[simp] theorem State.reach_dn (t : Nat) : (s.reach t).dn = s.dn := rfl
@[simp] theorem State.reach_out (t : Nat) : (s.reach t).out = s.out := rfl
@[simp] theorem State.reach_pending (t : Nat) : (s.reach t).pending = s.pending := rfl

/-! ## `State.raise` -/

@[simp] theorem State.raise_now (d : Detail) : (s.raise d).now = s.now := rfl
@[simp] theorem State.raise_held (d : Detail) : (s.raise d).held = s.held := rfl
@[simp] theorem State.raise_phase (d : Detail) : (s.raise d).phase = s.phase := rfl
@[simp] theorem State.raise_address (d : Detail) : (s.raise d).address = s.address := rfl
@[simp] theorem State.raise_fullReset (d : Detail) : (s.raise d).fullReset = s.fullReset := rfl
@[simp] theorem State.raise_resetAt (d : Detail) : (s.raise d).resetAt = s.resetAt := rfl
@[simp] theorem State.raise_sessions (d : Detail) : (s.raise d).sessions = s.sessions := rfl
@[simp] theorem State.raise_rq (d : Detail) : (s.raise d).rq = s.rq := rfl
@[simp] theorem State.raise_ns (d : Detail) : (s.raise d).ns = s.ns.raise d := rfl
@[simp] theorem State.raise_ms (d : Detail) : (s.raise d).ms = s.ms := rfl
@[simp] theorem State.raise_cu (d : Detail) : (s.raise d).cu = s.cu := rfl
@[simp] theorem State.raise_ft (d : Detail) : (s.raise d).ft = s.ft := rfl
@[simp] theorem State.raise_te (d : Detail) : (s.raise d).te = s.te := rfl
@[simp] theorem State.raise_ports (d : Detail) : (s.raise d).ports = s.ports := rfl
@[simp] theorem State.raise_cadence (d : Detail) : (s.raise d).cadence = s.cadence := rfl
@[simp] theorem State.raise_cadenceTimer (d : Detail) : (s.raise d).cadenceTimer = s.cadenceTimer := rfl
@[simp] theorem State.raise_rs (d : Detail) : (s.raise d).rs = s.rs := rfl
@[simp] theorem State.raise_up (d : Detail) : (s.raise d).up = s.up := rfl
@[simp] theorem State.raise_dn (d : Detail) : (s.raise d).dn = s.dn := rfl
@[simp] theorem State.raise_out (d : Detail) : (s.raise d).out = s.out := rfl
@[simp] theorem State.raise_pending (d : Detail) : (s.raise d).pending = s.pending := rfl

/-! ## `State.raiseIf` -/

@[simp] theorem State.raiseIf_now (o : Option Detail) : (s.raiseIf o).now = s.now := by cases o <;> rfl
@[simp] theorem State.raiseIf_held (o : Option Detail) : (s.raiseIf o).held = s.held := by cases o <;> rfl
@[simp] theorem State.raiseIf_phase (o : Option Detail) : (s.raiseIf o).phase = s.phase := by cases o <;> rfl
@[simp] theorem State.raiseIf_address (o : Option Detail) : (s.raiseIf o).address = s.address := by cases o <;> rfl
@[simp] theorem State.raiseIf_fullReset (o : Option Detail) : (s.raiseIf o).fullReset = s.fullReset := by cases o <;> rfl
@[simp] theorem State.raiseIf_resetAt (o : Option Detail) : (s.raiseIf o).resetAt = s.resetAt := by cases o <;> rfl
@[simp] theorem State.raiseIf_sessions (o : Option Detail) : (s.raiseIf o).sessions = s.sessions := by cases o <;> rfl
@[simp] theorem State.raiseIf_rq (o : Option Detail) : (s.raiseIf o).rq = s.rq := by cases o <;> rfl
@[simp] theorem State.raiseIf_ms (o : Option Detail) : (s.raiseIf o).ms = s.ms := by cases o <;> rfl
@[simp] theorem State.raiseIf_cu (o : Option Detail) : (s.raiseIf o).cu = s.cu := by cases o <;> rfl
@[simp] theorem State.raiseIf_ft (o : Option Detail) : (s.raiseIf o).ft = s.ft := by cases o <;> rfl
@[simp] theorem State.raiseIf_te (o : Option Detail) : (s.raiseIf o).te = s.te := by cases o <;> rfl
@[simp] theorem State.raiseIf_ports (o : Option Detail) : (s.raiseIf o).ports = s.ports := by cases o <;> rfl
@[simp] theorem State.raiseIf_cadence (o : Option Detail) : (s.raiseIf o).cadence = s.cadence := by cases o <;> rfl
@[simp] theorem State.raiseIf_cadenceTimer (o : Option Detail) : (s.raiseIf o).cadenceTimer = s.cadenceTimer := by cases o <;> rfl
@[simp] theorem State.raiseIf_rs (o : Option Detail) : (s.raiseIf o).rs = s.rs := by cases o <;> rfl
@[simp] theorem State.raiseIf_up (o : Option Detail) : (s.raiseIf o).up = s.up := by cases o <;> rfl
@[simp] theorem State.raiseIf_dn (o : Option Detail) : (s.raiseIf o).dn = s.dn := by cases o <;> rfl
@[simp] theorem State.raiseIf_out (o : Option Detail) : (s.raiseIf o).out = s.out := by cases o <;> rfl
@[simp] theorem State.raiseIf_pending (o : Option Detail) : (s.raiseIf o).pending = s.pending := by cases o <;> rfl

/-! ## `State.fill` -/

@[simp] theorem State.fill_now (i : Fin 8) (key seq kind : Byte) (st : Status) (res : List Byte) : (s.fill i key seq kind st res).now = s.now := rfl
@[simp] theorem State.fill_held (i : Fin 8) (key seq kind : Byte) (st : Status) (res : List Byte) : (s.fill i key seq kind st res).held = s.held := rfl
@[simp] theorem State.fill_phase (i : Fin 8) (key seq kind : Byte) (st : Status) (res : List Byte) : (s.fill i key seq kind st res).phase = s.phase := rfl
@[simp] theorem State.fill_address (i : Fin 8) (key seq kind : Byte) (st : Status) (res : List Byte) : (s.fill i key seq kind st res).address = s.address := rfl
@[simp] theorem State.fill_fullReset (i : Fin 8) (key seq kind : Byte) (st : Status) (res : List Byte) : (s.fill i key seq kind st res).fullReset = s.fullReset := rfl
@[simp] theorem State.fill_resetAt (i : Fin 8) (key seq kind : Byte) (st : Status) (res : List Byte) : (s.fill i key seq kind st res).resetAt = s.resetAt := rfl
@[simp] theorem State.fill_sessions (i : Fin 8) (key seq kind : Byte) (st : Status) (res : List Byte) : (s.fill i key seq kind st res).sessions = s.sessions := rfl
@[simp] theorem State.fill_rq (i : Fin 8) (key seq kind : Byte) (st : Status) (res : List Byte) : (s.fill i key seq kind st res).rq = s.rq.fill i ⟨s.address, key, seq, kind, st, res⟩ := rfl
@[simp] theorem State.fill_ns (i : Fin 8) (key seq kind : Byte) (st : Status) (res : List Byte) : (s.fill i key seq kind st res).ns = s.ns := rfl
@[simp] theorem State.fill_ms (i : Fin 8) (key seq kind : Byte) (st : Status) (res : List Byte) : (s.fill i key seq kind st res).ms = s.ms := rfl
@[simp] theorem State.fill_cu (i : Fin 8) (key seq kind : Byte) (st : Status) (res : List Byte) : (s.fill i key seq kind st res).cu = s.cu := rfl
@[simp] theorem State.fill_ft (i : Fin 8) (key seq kind : Byte) (st : Status) (res : List Byte) : (s.fill i key seq kind st res).ft = s.ft := rfl
@[simp] theorem State.fill_te (i : Fin 8) (key seq kind : Byte) (st : Status) (res : List Byte) : (s.fill i key seq kind st res).te = s.te := rfl
@[simp] theorem State.fill_ports (i : Fin 8) (key seq kind : Byte) (st : Status) (res : List Byte) : (s.fill i key seq kind st res).ports = s.ports := rfl
@[simp] theorem State.fill_cadence (i : Fin 8) (key seq kind : Byte) (st : Status) (res : List Byte) : (s.fill i key seq kind st res).cadence = s.cadence := rfl
@[simp] theorem State.fill_cadenceTimer (i : Fin 8) (key seq kind : Byte) (st : Status) (res : List Byte) : (s.fill i key seq kind st res).cadenceTimer = s.cadenceTimer := rfl
@[simp] theorem State.fill_rs (i : Fin 8) (key seq kind : Byte) (st : Status) (res : List Byte) : (s.fill i key seq kind st res).rs = s.rs := rfl
@[simp] theorem State.fill_up (i : Fin 8) (key seq kind : Byte) (st : Status) (res : List Byte) : (s.fill i key seq kind st res).up = s.up := rfl
@[simp] theorem State.fill_dn (i : Fin 8) (key seq kind : Byte) (st : Status) (res : List Byte) : (s.fill i key seq kind st res).dn = s.dn := rfl
@[simp] theorem State.fill_out (i : Fin 8) (key seq kind : Byte) (st : Status) (res : List Byte) : (s.fill i key seq kind st res).out = s.out := rfl
@[simp] theorem State.fill_pending (i : Fin 8) (key seq kind : Byte) (st : Status) (res : List Byte) : (s.fill i key seq kind st res).pending = s.pending := rfl

/-! ## `State.respond` -/

@[simp] theorem State.respond_now (code : Byte) (c : Ctl) (rq : Fin 8) (st : Status) (res : List Byte) : (s.respond code c rq st res).now = s.now := rfl
@[simp] theorem State.respond_held (code : Byte) (c : Ctl) (rq : Fin 8) (st : Status) (res : List Byte) : (s.respond code c rq st res).held = s.held := rfl
@[simp] theorem State.respond_phase (code : Byte) (c : Ctl) (rq : Fin 8) (st : Status) (res : List Byte) : (s.respond code c rq st res).phase = s.phase := rfl
@[simp] theorem State.respond_address (code : Byte) (c : Ctl) (rq : Fin 8) (st : Status) (res : List Byte) : (s.respond code c rq st res).address = s.address := rfl
@[simp] theorem State.respond_fullReset (code : Byte) (c : Ctl) (rq : Fin 8) (st : Status) (res : List Byte) : (s.respond code c rq st res).fullReset = s.fullReset := rfl
@[simp] theorem State.respond_resetAt (code : Byte) (c : Ctl) (rq : Fin 8) (st : Status) (res : List Byte) : (s.respond code c rq st res).resetAt = s.resetAt := rfl
@[simp] theorem State.respond_sessions (code : Byte) (c : Ctl) (rq : Fin 8) (st : Status) (res : List Byte) : (s.respond code c rq st res).sessions = s.sessions := rfl
@[simp] theorem State.respond_rq (code : Byte) (c : Ctl) (rq : Fin 8) (st : Status) (res : List Byte) : (s.respond code c rq st res).rq = s.rq.fill rq ⟨s.address, c.key, c.seq, code, st, res⟩ := rfl
@[simp] theorem State.respond_ns (code : Byte) (c : Ctl) (rq : Fin 8) (st : Status) (res : List Byte) : (s.respond code c rq st res).ns = s.ns := rfl
@[simp] theorem State.respond_ms (code : Byte) (c : Ctl) (rq : Fin 8) (st : Status) (res : List Byte) : (s.respond code c rq st res).ms = s.ms := rfl
@[simp] theorem State.respond_cu (code : Byte) (c : Ctl) (rq : Fin 8) (st : Status) (res : List Byte) : (s.respond code c rq st res).cu = s.cu := rfl
@[simp] theorem State.respond_ft (code : Byte) (c : Ctl) (rq : Fin 8) (st : Status) (res : List Byte) : (s.respond code c rq st res).ft = s.ft := rfl
@[simp] theorem State.respond_te (code : Byte) (c : Ctl) (rq : Fin 8) (st : Status) (res : List Byte) : (s.respond code c rq st res).te = s.te := rfl
@[simp] theorem State.respond_ports (code : Byte) (c : Ctl) (rq : Fin 8) (st : Status) (res : List Byte) : (s.respond code c rq st res).ports = s.ports := rfl
@[simp] theorem State.respond_cadence (code : Byte) (c : Ctl) (rq : Fin 8) (st : Status) (res : List Byte) : (s.respond code c rq st res).cadence = s.cadence := rfl
@[simp] theorem State.respond_cadenceTimer (code : Byte) (c : Ctl) (rq : Fin 8) (st : Status) (res : List Byte) : (s.respond code c rq st res).cadenceTimer = s.cadenceTimer := rfl
@[simp] theorem State.respond_rs (code : Byte) (c : Ctl) (rq : Fin 8) (st : Status) (res : List Byte) : (s.respond code c rq st res).rs = s.rs := rfl
@[simp] theorem State.respond_up (code : Byte) (c : Ctl) (rq : Fin 8) (st : Status) (res : List Byte) : (s.respond code c rq st res).up = s.up := rfl
@[simp] theorem State.respond_dn (code : Byte) (c : Ctl) (rq : Fin 8) (st : Status) (res : List Byte) : (s.respond code c rq st res).dn = s.dn := rfl
@[simp] theorem State.respond_out (code : Byte) (c : Ctl) (rq : Fin 8) (st : Status) (res : List Byte) : (s.respond code c rq st res).out = s.out := rfl
@[simp] theorem State.respond_pending (code : Byte) (c : Ctl) (rq : Fin 8) (st : Status) (res : List Byte) : (s.respond code c rq st res).pending = s.pending := rfl

/-! ## `State.forward` -/

@[simp] theorem State.forward_now (bytes : List Byte) : (s.forward bytes).now = s.now := by unfold State.forward; split <;> rfl
@[simp] theorem State.forward_held (bytes : List Byte) : (s.forward bytes).held = s.held := by unfold State.forward; split <;> rfl
@[simp] theorem State.forward_phase (bytes : List Byte) : (s.forward bytes).phase = s.phase := by unfold State.forward; split <;> rfl
@[simp] theorem State.forward_address (bytes : List Byte) : (s.forward bytes).address = s.address := by unfold State.forward; split <;> rfl
@[simp] theorem State.forward_fullReset (bytes : List Byte) : (s.forward bytes).fullReset = s.fullReset := by unfold State.forward; split <;> rfl
@[simp] theorem State.forward_resetAt (bytes : List Byte) : (s.forward bytes).resetAt = s.resetAt := by unfold State.forward; split <;> rfl
@[simp] theorem State.forward_sessions (bytes : List Byte) : (s.forward bytes).sessions = s.sessions := by unfold State.forward; split <;> rfl
@[simp] theorem State.forward_rq (bytes : List Byte) : (s.forward bytes).rq = s.rq := by unfold State.forward; split <;> rfl
@[simp] theorem State.forward_ns (bytes : List Byte) : (s.forward bytes).ns = s.ns := by unfold State.forward; split <;> rfl
@[simp] theorem State.forward_ms (bytes : List Byte) : (s.forward bytes).ms = s.ms := by unfold State.forward; split <;> rfl
@[simp] theorem State.forward_cu (bytes : List Byte) : (s.forward bytes).cu = s.cu := by unfold State.forward; split <;> rfl
@[simp] theorem State.forward_ft (bytes : List Byte) : (s.forward bytes).ft = s.ft := by unfold State.forward; split <;> rfl
@[simp] theorem State.forward_te (bytes : List Byte) : (s.forward bytes).te = s.te := by unfold State.forward; split <;> rfl
@[simp] theorem State.forward_ports (bytes : List Byte) : (s.forward bytes).ports = s.ports := by unfold State.forward; split <;> rfl
@[simp] theorem State.forward_cadence (bytes : List Byte) : (s.forward bytes).cadence = s.cadence := by unfold State.forward; split <;> rfl
@[simp] theorem State.forward_cadenceTimer (bytes : List Byte) : (s.forward bytes).cadenceTimer = s.cadenceTimer := by unfold State.forward; split <;> rfl
@[simp] theorem State.forward_rs (bytes : List Byte) : (s.forward bytes).rs = s.rs := by unfold State.forward; split <;> rfl
@[simp] theorem State.forward_up (bytes : List Byte) : (s.forward bytes).up = s.up := by unfold State.forward; split <;> rfl
@[simp] theorem State.forward_dn (bytes : List Byte) : (s.forward bytes).dn = s.dn := by unfold State.forward; split <;> rfl
@[simp] theorem State.forward_pending (bytes : List Byte) : (s.forward bytes).pending = s.pending := by unfold State.forward; split <;> rfl

/-! ## `State.arrive` -/

@[simp] theorem State.arrive_now : (s.arrive).now = s.now := by unfold State.arrive State.noticeLock; split <;> rfl
@[simp] theorem State.arrive_held : (s.arrive).held = s.held := by unfold State.arrive State.noticeLock; split <;> rfl
@[simp] theorem State.arrive_phase : (s.arrive).phase = s.phase := by unfold State.arrive State.noticeLock; split <;> rfl
@[simp] theorem State.arrive_address : (s.arrive).address = s.address := by unfold State.arrive State.noticeLock; split <;> rfl
@[simp] theorem State.arrive_fullReset : (s.arrive).fullReset = s.fullReset := by unfold State.arrive State.noticeLock; split <;> rfl
@[simp] theorem State.arrive_resetAt : (s.arrive).resetAt = s.resetAt := by unfold State.arrive State.noticeLock; split <;> rfl
@[simp] theorem State.arrive_sessions : (s.arrive).sessions = s.sessions := by unfold State.arrive State.noticeLock; split <;> rfl
@[simp] theorem State.arrive_rq : (s.arrive).rq = s.rq := by unfold State.arrive State.noticeLock; split <;> rfl
@[simp] theorem State.arrive_ms : (s.arrive).ms = s.ms := by unfold State.arrive State.noticeLock; split <;> rfl
@[simp] theorem State.arrive_cu : (s.arrive).cu = s.cu := by unfold State.arrive State.noticeLock; split <;> rfl
@[simp] theorem State.arrive_ft : (s.arrive).ft = s.ft.packet s.now := by unfold State.arrive State.noticeLock; split <;> rfl
@[simp] theorem State.arrive_te : (s.arrive).te = s.te := by unfold State.arrive State.noticeLock; split <;> rfl
@[simp] theorem State.arrive_ports : (s.arrive).ports = s.ports := by unfold State.arrive State.noticeLock; split <;> rfl
@[simp] theorem State.arrive_cadence : (s.arrive).cadence = s.cadence := by unfold State.arrive State.noticeLock; split <;> rfl
@[simp] theorem State.arrive_cadenceTimer : (s.arrive).cadenceTimer = s.cadenceTimer := by unfold State.arrive State.noticeLock; split <;> rfl
@[simp] theorem State.arrive_rs : (s.arrive).rs = s.rs := by unfold State.arrive State.noticeLock; split <;> rfl
@[simp] theorem State.arrive_up : (s.arrive).up = s.up := by unfold State.arrive State.noticeLock; split <;> rfl
@[simp] theorem State.arrive_dn : (s.arrive).dn = s.dn := by unfold State.arrive State.noticeLock; split <;> rfl
@[simp] theorem State.arrive_out : (s.arrive).out = s.out := by unfold State.arrive State.noticeLock; split <;> rfl
@[simp] theorem State.arrive_pending : (s.arrive).pending = s.pending := by unfold State.arrive State.noticeLock; split <;> rfl

/-! ## `State.modSession` -/

@[simp] theorem State.modSession_now (i : Fin 4) (f : Session → Session) : (s.modSession i f).now = s.now := rfl
@[simp] theorem State.modSession_held (i : Fin 4) (f : Session → Session) : (s.modSession i f).held = s.held := rfl
@[simp] theorem State.modSession_phase (i : Fin 4) (f : Session → Session) : (s.modSession i f).phase = s.phase := rfl
@[simp] theorem State.modSession_address (i : Fin 4) (f : Session → Session) : (s.modSession i f).address = s.address := rfl
@[simp] theorem State.modSession_fullReset (i : Fin 4) (f : Session → Session) : (s.modSession i f).fullReset = s.fullReset := rfl
@[simp] theorem State.modSession_resetAt (i : Fin 4) (f : Session → Session) : (s.modSession i f).resetAt = s.resetAt := rfl
@[simp] theorem State.modSession_sessions (i : Fin 4) (f : Session → Session) : (s.modSession i f).sessions = upd s.sessions i (s.sessions[i].map f) := rfl
@[simp] theorem State.modSession_rq (i : Fin 4) (f : Session → Session) : (s.modSession i f).rq = s.rq := rfl
@[simp] theorem State.modSession_ns (i : Fin 4) (f : Session → Session) : (s.modSession i f).ns = s.ns := rfl
@[simp] theorem State.modSession_ms (i : Fin 4) (f : Session → Session) : (s.modSession i f).ms = s.ms := rfl
@[simp] theorem State.modSession_cu (i : Fin 4) (f : Session → Session) : (s.modSession i f).cu = s.cu := rfl
@[simp] theorem State.modSession_ft (i : Fin 4) (f : Session → Session) : (s.modSession i f).ft = s.ft := rfl
@[simp] theorem State.modSession_te (i : Fin 4) (f : Session → Session) : (s.modSession i f).te = s.te := rfl
@[simp] theorem State.modSession_ports (i : Fin 4) (f : Session → Session) : (s.modSession i f).ports = s.ports := rfl
@[simp] theorem State.modSession_cadence (i : Fin 4) (f : Session → Session) : (s.modSession i f).cadence = s.cadence := rfl
@[simp] theorem State.modSession_cadenceTimer (i : Fin 4) (f : Session → Session) : (s.modSession i f).cadenceTimer = s.cadenceTimer := rfl
@[simp] theorem State.modSession_rs (i : Fin 4) (f : Session → Session) : (s.modSession i f).rs = s.rs := rfl
@[simp] theorem State.modSession_up (i : Fin 4) (f : Session → Session) : (s.modSession i f).up = s.up := rfl
@[simp] theorem State.modSession_dn (i : Fin 4) (f : Session → Session) : (s.modSession i f).dn = s.dn := rfl
@[simp] theorem State.modSession_out (i : Fin 4) (f : Session → Session) : (s.modSession i f).out = s.out := rfl
@[simp] theorem State.modSession_pending (i : Fin 4) (f : Session → Session) : (s.modSession i f).pending = s.pending := rfl

/-! ## `State.setCursor` -/

@[simp] theorem State.setCursor_now (i : Fin 4) (c : Option Cursor) : (s.setCursor i c).now = s.now := rfl
@[simp] theorem State.setCursor_held (i : Fin 4) (c : Option Cursor) : (s.setCursor i c).held = s.held := rfl
@[simp] theorem State.setCursor_phase (i : Fin 4) (c : Option Cursor) : (s.setCursor i c).phase = s.phase := rfl
@[simp] theorem State.setCursor_address (i : Fin 4) (c : Option Cursor) : (s.setCursor i c).address = s.address := rfl
@[simp] theorem State.setCursor_fullReset (i : Fin 4) (c : Option Cursor) : (s.setCursor i c).fullReset = s.fullReset := rfl
@[simp] theorem State.setCursor_resetAt (i : Fin 4) (c : Option Cursor) : (s.setCursor i c).resetAt = s.resetAt := rfl
@[simp] theorem State.setCursor_sessions (i : Fin 4) (c : Option Cursor) : (s.setCursor i c).sessions = upd s.sessions i (s.sessions[i].map fun d => { d with cursor := c }) := rfl
@[simp] theorem State.setCursor_rq (i : Fin 4) (c : Option Cursor) : (s.setCursor i c).rq = s.rq := rfl
@[simp] theorem State.setCursor_ns (i : Fin 4) (c : Option Cursor) : (s.setCursor i c).ns = s.ns := rfl
@[simp] theorem State.setCursor_ms (i : Fin 4) (c : Option Cursor) : (s.setCursor i c).ms = s.ms := rfl
@[simp] theorem State.setCursor_cu (i : Fin 4) (c : Option Cursor) : (s.setCursor i c).cu = s.cu := rfl
@[simp] theorem State.setCursor_ft (i : Fin 4) (c : Option Cursor) : (s.setCursor i c).ft = s.ft := rfl
@[simp] theorem State.setCursor_te (i : Fin 4) (c : Option Cursor) : (s.setCursor i c).te = s.te := rfl
@[simp] theorem State.setCursor_ports (i : Fin 4) (c : Option Cursor) : (s.setCursor i c).ports = s.ports := rfl
@[simp] theorem State.setCursor_cadence (i : Fin 4) (c : Option Cursor) : (s.setCursor i c).cadence = s.cadence := rfl
@[simp] theorem State.setCursor_cadenceTimer (i : Fin 4) (c : Option Cursor) : (s.setCursor i c).cadenceTimer = s.cadenceTimer := rfl
@[simp] theorem State.setCursor_rs (i : Fin 4) (c : Option Cursor) : (s.setCursor i c).rs = s.rs := rfl
@[simp] theorem State.setCursor_up (i : Fin 4) (c : Option Cursor) : (s.setCursor i c).up = s.up := rfl
@[simp] theorem State.setCursor_dn (i : Fin 4) (c : Option Cursor) : (s.setCursor i c).dn = s.dn := rfl
@[simp] theorem State.setCursor_out (i : Fin 4) (c : Option Cursor) : (s.setCursor i c).out = s.out := rfl
@[simp] theorem State.setCursor_pending (i : Fin 4) (c : Option Cursor) : (s.setCursor i c).pending = s.pending := rfl

/-! ## `State.dropStagingCursor` -/

@[simp] theorem State.dropStagingCursor_now (i : Fin 4) : (s.dropStagingCursor i).now = s.now := by unfold State.dropStagingCursor; split <;> rfl
@[simp] theorem State.dropStagingCursor_held (i : Fin 4) : (s.dropStagingCursor i).held = s.held := by unfold State.dropStagingCursor; split <;> rfl
@[simp] theorem State.dropStagingCursor_phase (i : Fin 4) : (s.dropStagingCursor i).phase = s.phase := by unfold State.dropStagingCursor; split <;> rfl
@[simp] theorem State.dropStagingCursor_address (i : Fin 4) : (s.dropStagingCursor i).address = s.address := by unfold State.dropStagingCursor; split <;> rfl
@[simp] theorem State.dropStagingCursor_fullReset (i : Fin 4) : (s.dropStagingCursor i).fullReset = s.fullReset := by unfold State.dropStagingCursor; split <;> rfl
@[simp] theorem State.dropStagingCursor_resetAt (i : Fin 4) : (s.dropStagingCursor i).resetAt = s.resetAt := by unfold State.dropStagingCursor; split <;> rfl
@[simp] theorem State.dropStagingCursor_rq (i : Fin 4) : (s.dropStagingCursor i).rq = s.rq := by unfold State.dropStagingCursor; split <;> rfl
@[simp] theorem State.dropStagingCursor_ns (i : Fin 4) : (s.dropStagingCursor i).ns = s.ns := by unfold State.dropStagingCursor; split <;> rfl
@[simp] theorem State.dropStagingCursor_ms (i : Fin 4) : (s.dropStagingCursor i).ms = s.ms := by unfold State.dropStagingCursor; split <;> rfl
@[simp] theorem State.dropStagingCursor_cu (i : Fin 4) : (s.dropStagingCursor i).cu = s.cu := by unfold State.dropStagingCursor; split <;> rfl
@[simp] theorem State.dropStagingCursor_ft (i : Fin 4) : (s.dropStagingCursor i).ft = s.ft := by unfold State.dropStagingCursor; split <;> rfl
@[simp] theorem State.dropStagingCursor_te (i : Fin 4) : (s.dropStagingCursor i).te = s.te := by unfold State.dropStagingCursor; split <;> rfl
@[simp] theorem State.dropStagingCursor_ports (i : Fin 4) : (s.dropStagingCursor i).ports = s.ports := by unfold State.dropStagingCursor; split <;> rfl
@[simp] theorem State.dropStagingCursor_cadence (i : Fin 4) : (s.dropStagingCursor i).cadence = s.cadence := by unfold State.dropStagingCursor; split <;> rfl
@[simp] theorem State.dropStagingCursor_cadenceTimer (i : Fin 4) : (s.dropStagingCursor i).cadenceTimer = s.cadenceTimer := by unfold State.dropStagingCursor; split <;> rfl
@[simp] theorem State.dropStagingCursor_rs (i : Fin 4) : (s.dropStagingCursor i).rs = s.rs := by unfold State.dropStagingCursor; split <;> rfl
@[simp] theorem State.dropStagingCursor_up (i : Fin 4) : (s.dropStagingCursor i).up = s.up := by unfold State.dropStagingCursor; split <;> rfl
@[simp] theorem State.dropStagingCursor_dn (i : Fin 4) : (s.dropStagingCursor i).dn = s.dn := by unfold State.dropStagingCursor; split <;> rfl
@[simp] theorem State.dropStagingCursor_out (i : Fin 4) : (s.dropStagingCursor i).out = s.out := by unfold State.dropStagingCursor; split <;> rfl
@[simp] theorem State.dropStagingCursor_pending (i : Fin 4) : (s.dropStagingCursor i).pending = s.pending := by unfold State.dropStagingCursor; split <;> rfl

/-! ## `State.freeSlot` -/

@[simp] theorem State.freeSlot_now (i : Fin 4) : (s.freeSlot i).now = s.now := rfl
@[simp] theorem State.freeSlot_held (i : Fin 4) : (s.freeSlot i).held = s.held := rfl
@[simp] theorem State.freeSlot_phase (i : Fin 4) : (s.freeSlot i).phase = s.phase := rfl
@[simp] theorem State.freeSlot_address (i : Fin 4) : (s.freeSlot i).address = s.address := rfl
@[simp] theorem State.freeSlot_fullReset (i : Fin 4) : (s.freeSlot i).fullReset = s.fullReset := rfl
@[simp] theorem State.freeSlot_resetAt (i : Fin 4) : (s.freeSlot i).resetAt = s.resetAt := rfl
@[simp] theorem State.freeSlot_sessions (i : Fin 4) : (s.freeSlot i).sessions = upd s.sessions i none := rfl
@[simp] theorem State.freeSlot_rq (i : Fin 4) : (s.freeSlot i).rq = s.rq := rfl
@[simp] theorem State.freeSlot_ns (i : Fin 4) : (s.freeSlot i).ns = s.ns := rfl
@[simp] theorem State.freeSlot_ms (i : Fin 4) : (s.freeSlot i).ms = s.ms := rfl
@[simp] theorem State.freeSlot_cu (i : Fin 4) : (s.freeSlot i).cu = s.cu := rfl
@[simp] theorem State.freeSlot_ft (i : Fin 4) : (s.freeSlot i).ft = s.ft := rfl
@[simp] theorem State.freeSlot_te (i : Fin 4) : (s.freeSlot i).te = s.te := rfl
@[simp] theorem State.freeSlot_ports (i : Fin 4) : (s.freeSlot i).ports = s.ports := rfl
@[simp] theorem State.freeSlot_cadence (i : Fin 4) : (s.freeSlot i).cadence = s.cadence := rfl
@[simp] theorem State.freeSlot_cadenceTimer (i : Fin 4) : (s.freeSlot i).cadenceTimer = s.cadenceTimer := rfl
@[simp] theorem State.freeSlot_rs (i : Fin 4) : (s.freeSlot i).rs = s.rs := rfl
@[simp] theorem State.freeSlot_up (i : Fin 4) : (s.freeSlot i).up = s.up := rfl
@[simp] theorem State.freeSlot_dn (i : Fin 4) : (s.freeSlot i).dn = s.dn := rfl
@[simp] theorem State.freeSlot_out (i : Fin 4) : (s.freeSlot i).out = s.out := rfl
@[simp] theorem State.freeSlot_pending (i : Fin 4) : (s.freeSlot i).pending = s.pending := rfl

/-! ## `State.putEdit` -/

@[simp] theorem State.putEdit_now (e : EditBuffer) : (s.putEdit e).now = s.now := rfl
@[simp] theorem State.putEdit_held (e : EditBuffer) : (s.putEdit e).held = s.held := rfl
@[simp] theorem State.putEdit_phase (e : EditBuffer) : (s.putEdit e).phase = s.phase := rfl
@[simp] theorem State.putEdit_address (e : EditBuffer) : (s.putEdit e).address = s.address := rfl
@[simp] theorem State.putEdit_fullReset (e : EditBuffer) : (s.putEdit e).fullReset = s.fullReset := rfl
@[simp] theorem State.putEdit_resetAt (e : EditBuffer) : (s.putEdit e).resetAt = s.resetAt := rfl
@[simp] theorem State.putEdit_sessions (e : EditBuffer) : (s.putEdit e).sessions = s.sessions := rfl
@[simp] theorem State.putEdit_rq (e : EditBuffer) : (s.putEdit e).rq = s.rq := rfl
@[simp] theorem State.putEdit_ns (e : EditBuffer) : (s.putEdit e).ns = s.ns := rfl
@[simp] theorem State.putEdit_ms (e : EditBuffer) : (s.putEdit e).ms = { s.ms with edit := some e } := rfl
@[simp] theorem State.putEdit_cu (e : EditBuffer) : (s.putEdit e).cu = s.cu := rfl
@[simp] theorem State.putEdit_ft (e : EditBuffer) : (s.putEdit e).ft = s.ft := rfl
@[simp] theorem State.putEdit_te (e : EditBuffer) : (s.putEdit e).te = s.te := rfl
@[simp] theorem State.putEdit_ports (e : EditBuffer) : (s.putEdit e).ports = s.ports := rfl
@[simp] theorem State.putEdit_cadence (e : EditBuffer) : (s.putEdit e).cadence = s.cadence := rfl
@[simp] theorem State.putEdit_cadenceTimer (e : EditBuffer) : (s.putEdit e).cadenceTimer = s.cadenceTimer := rfl
@[simp] theorem State.putEdit_rs (e : EditBuffer) : (s.putEdit e).rs = s.rs := rfl
@[simp] theorem State.putEdit_up (e : EditBuffer) : (s.putEdit e).up = s.up := rfl
@[simp] theorem State.putEdit_dn (e : EditBuffer) : (s.putEdit e).dn = s.dn := rfl
@[simp] theorem State.putEdit_out (e : EditBuffer) : (s.putEdit e).out = s.out := rfl
@[simp] theorem State.putEdit_pending (e : EditBuffer) : (s.putEdit e).pending = s.pending := rfl

/-! ## `State.placeSwitch` -/

@[simp] theorem State.placeSwitch_now (w : SwitchPart) : (s.placeSwitch w).now = s.now := by unfold State.placeSwitch; simp
@[simp] theorem State.placeSwitch_held (w : SwitchPart) : (s.placeSwitch w).held = s.held := by unfold State.placeSwitch; simp
@[simp] theorem State.placeSwitch_phase (w : SwitchPart) : (s.placeSwitch w).phase = s.phase := by unfold State.placeSwitch; simp
@[simp] theorem State.placeSwitch_address (w : SwitchPart) : (s.placeSwitch w).address = s.address := by unfold State.placeSwitch; simp
@[simp] theorem State.placeSwitch_fullReset (w : SwitchPart) : (s.placeSwitch w).fullReset = s.fullReset := by unfold State.placeSwitch; simp
@[simp] theorem State.placeSwitch_resetAt (w : SwitchPart) : (s.placeSwitch w).resetAt = s.resetAt := by unfold State.placeSwitch; simp
@[simp] theorem State.placeSwitch_sessions (w : SwitchPart) : (s.placeSwitch w).sessions = s.sessions := by unfold State.placeSwitch; simp
@[simp] theorem State.placeSwitch_rq (w : SwitchPart) : (s.placeSwitch w).rq = s.rq := by unfold State.placeSwitch; simp
@[simp] theorem State.placeSwitch_ms (w : SwitchPart) : (s.placeSwitch w).ms = { s.ms with switch := some w } := by unfold State.placeSwitch; simp
@[simp] theorem State.placeSwitch_cu (w : SwitchPart) : (s.placeSwitch w).cu = s.cu := by unfold State.placeSwitch; simp
@[simp] theorem State.placeSwitch_ft (w : SwitchPart) : (s.placeSwitch w).ft = s.ft := by unfold State.placeSwitch; simp
@[simp] theorem State.placeSwitch_te (w : SwitchPart) : (s.placeSwitch w).te = s.te := by unfold State.placeSwitch; simp
@[simp] theorem State.placeSwitch_ports (w : SwitchPart) : (s.placeSwitch w).ports = s.ports := by unfold State.placeSwitch; simp
@[simp] theorem State.placeSwitch_cadence (w : SwitchPart) : (s.placeSwitch w).cadence = s.cadence := by unfold State.placeSwitch; simp
@[simp] theorem State.placeSwitch_cadenceTimer (w : SwitchPart) : (s.placeSwitch w).cadenceTimer = s.cadenceTimer := by unfold State.placeSwitch; simp
@[simp] theorem State.placeSwitch_rs (w : SwitchPart) : (s.placeSwitch w).rs = s.rs := by unfold State.placeSwitch; simp
@[simp] theorem State.placeSwitch_up (w : SwitchPart) : (s.placeSwitch w).up = s.up := by unfold State.placeSwitch; simp
@[simp] theorem State.placeSwitch_dn (w : SwitchPart) : (s.placeSwitch w).dn = s.dn := by unfold State.placeSwitch; simp
@[simp] theorem State.placeSwitch_out (w : SwitchPart) : (s.placeSwitch w).out = s.out := by unfold State.placeSwitch; simp
@[simp] theorem State.placeSwitch_pending (w : SwitchPart) : (s.placeSwitch w).pending = s.pending := by unfold State.placeSwitch; simp

/-! ## `State.setPort` -/

@[simp] theorem State.setPort_now (i : Fin 8) (p : Port) : (s.setPort i p).now = s.now := rfl
@[simp] theorem State.setPort_held (i : Fin 8) (p : Port) : (s.setPort i p).held = s.held := rfl
@[simp] theorem State.setPort_phase (i : Fin 8) (p : Port) : (s.setPort i p).phase = s.phase := rfl
@[simp] theorem State.setPort_address (i : Fin 8) (p : Port) : (s.setPort i p).address = s.address := rfl
@[simp] theorem State.setPort_fullReset (i : Fin 8) (p : Port) : (s.setPort i p).fullReset = s.fullReset := rfl
@[simp] theorem State.setPort_resetAt (i : Fin 8) (p : Port) : (s.setPort i p).resetAt = s.resetAt := rfl
@[simp] theorem State.setPort_sessions (i : Fin 8) (p : Port) : (s.setPort i p).sessions = s.sessions := rfl
@[simp] theorem State.setPort_rq (i : Fin 8) (p : Port) : (s.setPort i p).rq = s.rq := rfl
@[simp] theorem State.setPort_ns (i : Fin 8) (p : Port) : (s.setPort i p).ns = s.ns := rfl
@[simp] theorem State.setPort_ms (i : Fin 8) (p : Port) : (s.setPort i p).ms = s.ms := rfl
@[simp] theorem State.setPort_cu (i : Fin 8) (p : Port) : (s.setPort i p).cu = s.cu := rfl
@[simp] theorem State.setPort_ft (i : Fin 8) (p : Port) : (s.setPort i p).ft = s.ft := rfl
@[simp] theorem State.setPort_te (i : Fin 8) (p : Port) : (s.setPort i p).te = s.te := rfl
@[simp] theorem State.setPort_ports (i : Fin 8) (p : Port) : (s.setPort i p).ports = upd s.ports i (p.settle s.now) := rfl
@[simp] theorem State.setPort_cadence (i : Fin 8) (p : Port) : (s.setPort i p).cadence = s.cadence := rfl
@[simp] theorem State.setPort_cadenceTimer (i : Fin 8) (p : Port) : (s.setPort i p).cadenceTimer = s.cadenceTimer := rfl
@[simp] theorem State.setPort_rs (i : Fin 8) (p : Port) : (s.setPort i p).rs = s.rs := rfl
@[simp] theorem State.setPort_up (i : Fin 8) (p : Port) : (s.setPort i p).up = s.up := rfl
@[simp] theorem State.setPort_dn (i : Fin 8) (p : Port) : (s.setPort i p).dn = s.dn := rfl
@[simp] theorem State.setPort_out (i : Fin 8) (p : Port) : (s.setPort i p).out = s.out ++ p.starting.toList.map (Output.chain i) := rfl
@[simp] theorem State.setPort_pending (i : Fin 8) (p : Port) : (s.setPort i p).pending = s.pending := rfl

/-! ## `State.atPort` -/

@[simp] theorem State.atPort_now (i : Fin 8) (f : Port → Port) : (s.atPort i f).now = s.now := rfl
@[simp] theorem State.atPort_held (i : Fin 8) (f : Port → Port) : (s.atPort i f).held = s.held := rfl
@[simp] theorem State.atPort_phase (i : Fin 8) (f : Port → Port) : (s.atPort i f).phase = s.phase := rfl
@[simp] theorem State.atPort_address (i : Fin 8) (f : Port → Port) : (s.atPort i f).address = s.address := rfl
@[simp] theorem State.atPort_fullReset (i : Fin 8) (f : Port → Port) : (s.atPort i f).fullReset = s.fullReset := rfl
@[simp] theorem State.atPort_resetAt (i : Fin 8) (f : Port → Port) : (s.atPort i f).resetAt = s.resetAt := rfl
@[simp] theorem State.atPort_sessions (i : Fin 8) (f : Port → Port) : (s.atPort i f).sessions = s.sessions := rfl
@[simp] theorem State.atPort_rq (i : Fin 8) (f : Port → Port) : (s.atPort i f).rq = s.rq := rfl
@[simp] theorem State.atPort_ns (i : Fin 8) (f : Port → Port) : (s.atPort i f).ns = s.ns := rfl
@[simp] theorem State.atPort_ms (i : Fin 8) (f : Port → Port) : (s.atPort i f).ms = s.ms := rfl
@[simp] theorem State.atPort_cu (i : Fin 8) (f : Port → Port) : (s.atPort i f).cu = s.cu := rfl
@[simp] theorem State.atPort_ft (i : Fin 8) (f : Port → Port) : (s.atPort i f).ft = s.ft := rfl
@[simp] theorem State.atPort_te (i : Fin 8) (f : Port → Port) : (s.atPort i f).te = s.te := rfl
@[simp] theorem State.atPort_ports (i : Fin 8) (f : Port → Port) : (s.atPort i f).ports = upd s.ports i ((f s.ports[i]).settle s.now) := rfl
@[simp] theorem State.atPort_cadence (i : Fin 8) (f : Port → Port) : (s.atPort i f).cadence = s.cadence := rfl
@[simp] theorem State.atPort_cadenceTimer (i : Fin 8) (f : Port → Port) : (s.atPort i f).cadenceTimer = s.cadenceTimer := rfl
@[simp] theorem State.atPort_rs (i : Fin 8) (f : Port → Port) : (s.atPort i f).rs = s.rs := rfl
@[simp] theorem State.atPort_up (i : Fin 8) (f : Port → Port) : (s.atPort i f).up = s.up := rfl
@[simp] theorem State.atPort_dn (i : Fin 8) (f : Port → Port) : (s.atPort i f).dn = s.dn := rfl
@[simp] theorem State.atPort_pending (i : Fin 8) (f : Port → Port) : (s.atPort i f).pending = s.pending := rfl

/-! ## `State.atPorts` -/

@[simp] theorem State.atPorts_now (f : Port → Port) : (s.atPorts f).now = s.now := by simp [State.atPorts, portIndices]
@[simp] theorem State.atPorts_held (f : Port → Port) : (s.atPorts f).held = s.held := by simp [State.atPorts, portIndices]
@[simp] theorem State.atPorts_phase (f : Port → Port) : (s.atPorts f).phase = s.phase := by simp [State.atPorts, portIndices]
@[simp] theorem State.atPorts_address (f : Port → Port) : (s.atPorts f).address = s.address := by simp [State.atPorts, portIndices]
@[simp] theorem State.atPorts_fullReset (f : Port → Port) : (s.atPorts f).fullReset = s.fullReset := by simp [State.atPorts, portIndices]
@[simp] theorem State.atPorts_resetAt (f : Port → Port) : (s.atPorts f).resetAt = s.resetAt := by simp [State.atPorts, portIndices]
@[simp] theorem State.atPorts_sessions (f : Port → Port) : (s.atPorts f).sessions = s.sessions := by simp [State.atPorts, portIndices]
@[simp] theorem State.atPorts_rq (f : Port → Port) : (s.atPorts f).rq = s.rq := by simp [State.atPorts, portIndices]
@[simp] theorem State.atPorts_ns (f : Port → Port) : (s.atPorts f).ns = s.ns := by simp [State.atPorts, portIndices]
@[simp] theorem State.atPorts_ms (f : Port → Port) : (s.atPorts f).ms = s.ms := by simp [State.atPorts, portIndices]
@[simp] theorem State.atPorts_cu (f : Port → Port) : (s.atPorts f).cu = s.cu := by simp [State.atPorts, portIndices]
@[simp] theorem State.atPorts_ft (f : Port → Port) : (s.atPorts f).ft = s.ft := by simp [State.atPorts, portIndices]
@[simp] theorem State.atPorts_te (f : Port → Port) : (s.atPorts f).te = s.te := by simp [State.atPorts, portIndices]
@[simp] theorem State.atPorts_cadence (f : Port → Port) : (s.atPorts f).cadence = s.cadence := by simp [State.atPorts, portIndices]
@[simp] theorem State.atPorts_cadenceTimer (f : Port → Port) : (s.atPorts f).cadenceTimer = s.cadenceTimer := by simp [State.atPorts, portIndices]
@[simp] theorem State.atPorts_rs (f : Port → Port) : (s.atPorts f).rs = s.rs := by simp [State.atPorts, portIndices]
@[simp] theorem State.atPorts_up (f : Port → Port) : (s.atPorts f).up = s.up := by simp [State.atPorts, portIndices]
@[simp] theorem State.atPorts_dn (f : Port → Port) : (s.atPorts f).dn = s.dn := by simp [State.atPorts, portIndices]
@[simp] theorem State.atPorts_pending (f : Port → Port) : (s.atPorts f).pending = s.pending := by simp [State.atPorts, portIndices]

/-! ## `State.changeDown` -/

@[simp] theorem State.changeDown_now (f : Downlink → Downlink) : (s.changeDown f).now = s.now := rfl
@[simp] theorem State.changeDown_held (f : Downlink → Downlink) : (s.changeDown f).held = s.held := rfl
@[simp] theorem State.changeDown_phase (f : Downlink → Downlink) : (s.changeDown f).phase = s.phase := rfl
@[simp] theorem State.changeDown_address (f : Downlink → Downlink) : (s.changeDown f).address = s.address := rfl
@[simp] theorem State.changeDown_fullReset (f : Downlink → Downlink) : (s.changeDown f).fullReset = s.fullReset := rfl
@[simp] theorem State.changeDown_resetAt (f : Downlink → Downlink) : (s.changeDown f).resetAt = s.resetAt := rfl
@[simp] theorem State.changeDown_sessions (f : Downlink → Downlink) : (s.changeDown f).sessions = s.sessions := rfl
@[simp] theorem State.changeDown_rq (f : Downlink → Downlink) : (s.changeDown f).rq = s.rq := rfl
@[simp] theorem State.changeDown_ns (f : Downlink → Downlink) : (s.changeDown f).ns = s.ns := rfl
@[simp] theorem State.changeDown_ms (f : Downlink → Downlink) : (s.changeDown f).ms = s.ms := rfl
@[simp] theorem State.changeDown_cu (f : Downlink → Downlink) : (s.changeDown f).cu = s.cu := rfl
@[simp] theorem State.changeDown_ft (f : Downlink → Downlink) : (s.changeDown f).ft = s.ft := rfl
@[simp] theorem State.changeDown_te (f : Downlink → Downlink) : (s.changeDown f).te = s.te := rfl
@[simp] theorem State.changeDown_ports (f : Downlink → Downlink) : (s.changeDown f).ports = s.ports := rfl
@[simp] theorem State.changeDown_cadence (f : Downlink → Downlink) : (s.changeDown f).cadence = s.cadence := rfl
@[simp] theorem State.changeDown_cadenceTimer (f : Downlink → Downlink) : (s.changeDown f).cadenceTimer = s.cadenceTimer := rfl
@[simp] theorem State.changeDown_rs (f : Downlink → Downlink) : (s.changeDown f).rs = s.rs := rfl
@[simp] theorem State.changeDown_up (f : Downlink → Downlink) : (s.changeDown f).up = s.up := rfl
@[simp] theorem State.changeDown_dn (f : Downlink → Downlink) : (s.changeDown f).dn = (f s.dn).followHold s.now s.dn.holdOut := rfl
@[simp] theorem State.changeDown_out (f : Downlink → Downlink) : (s.changeDown f).out = s.out := rfl
@[simp] theorem State.changeDown_pending (f : Downlink → Downlink) : (s.changeDown f).pending = s.pending := rfl

/-! ## `State.heard` -/

@[simp] theorem State.heard_now (buffer : List (List Byte)) : (s.heard buffer).now = s.now := by unfold State.heard; simp
@[simp] theorem State.heard_held (buffer : List (List Byte)) : (s.heard buffer).held = s.held := by unfold State.heard; simp
@[simp] theorem State.heard_phase (buffer : List (List Byte)) : (s.heard buffer).phase = s.phase := by unfold State.heard; simp
@[simp] theorem State.heard_address (buffer : List (List Byte)) : (s.heard buffer).address = s.address := by unfold State.heard; simp
@[simp] theorem State.heard_fullReset (buffer : List (List Byte)) : (s.heard buffer).fullReset = s.fullReset := by unfold State.heard; simp
@[simp] theorem State.heard_resetAt (buffer : List (List Byte)) : (s.heard buffer).resetAt = s.resetAt := by unfold State.heard; simp
@[simp] theorem State.heard_sessions (buffer : List (List Byte)) : (s.heard buffer).sessions = s.sessions := by unfold State.heard; simp
@[simp] theorem State.heard_rq (buffer : List (List Byte)) : (s.heard buffer).rq = s.rq := by unfold State.heard; simp
@[simp] theorem State.heard_ms (buffer : List (List Byte)) : (s.heard buffer).ms = s.ms := by unfold State.heard; simp
@[simp] theorem State.heard_cu (buffer : List (List Byte)) : (s.heard buffer).cu = s.cu := by unfold State.heard; simp
@[simp] theorem State.heard_ft (buffer : List (List Byte)) : (s.heard buffer).ft = s.ft := by unfold State.heard; simp
@[simp] theorem State.heard_te (buffer : List (List Byte)) : (s.heard buffer).te = s.te := by unfold State.heard; simp
@[simp] theorem State.heard_ports (buffer : List (List Byte)) : (s.heard buffer).ports = s.ports := by unfold State.heard; simp
@[simp] theorem State.heard_cadence (buffer : List (List Byte)) : (s.heard buffer).cadence = s.cadence := by unfold State.heard; simp
@[simp] theorem State.heard_cadenceTimer (buffer : List (List Byte)) : (s.heard buffer).cadenceTimer = s.cadenceTimer := by unfold State.heard; simp
@[simp] theorem State.heard_rs (buffer : List (List Byte)) : (s.heard buffer).rs = s.rs := by unfold State.heard; simp
@[simp] theorem State.heard_up (buffer : List (List Byte)) : (s.heard buffer).up = s.up := by unfold State.heard; simp
@[simp] theorem State.heard_dn (buffer : List (List Byte)) : (s.heard buffer).dn = s.dn.heard s.now buffer := by unfold State.heard; simp
@[simp] theorem State.heard_out (buffer : List (List Byte)) : (s.heard buffer).out = s.out := by unfold State.heard; simp
@[simp] theorem State.heard_pending (buffer : List (List Byte)) : (s.heard buffer).pending = s.pending := by unfold State.heard; simp

/-! ## `State.dropPacket` -/

@[simp] theorem State.dropPacket_now (lane : Lane) (bytes : List Byte) : (s.dropPacket lane bytes).now = s.now := by unfold State.dropPacket; split <;> rfl
@[simp] theorem State.dropPacket_held (lane : Lane) (bytes : List Byte) : (s.dropPacket lane bytes).held = s.held := by unfold State.dropPacket; split <;> rfl
@[simp] theorem State.dropPacket_phase (lane : Lane) (bytes : List Byte) : (s.dropPacket lane bytes).phase = s.phase := by unfold State.dropPacket; split <;> rfl
@[simp] theorem State.dropPacket_address (lane : Lane) (bytes : List Byte) : (s.dropPacket lane bytes).address = s.address := by unfold State.dropPacket; split <;> rfl
@[simp] theorem State.dropPacket_fullReset (lane : Lane) (bytes : List Byte) : (s.dropPacket lane bytes).fullReset = s.fullReset := by unfold State.dropPacket; split <;> rfl
@[simp] theorem State.dropPacket_resetAt (lane : Lane) (bytes : List Byte) : (s.dropPacket lane bytes).resetAt = s.resetAt := by unfold State.dropPacket; split <;> rfl
@[simp] theorem State.dropPacket_sessions (lane : Lane) (bytes : List Byte) : (s.dropPacket lane bytes).sessions = s.sessions := by unfold State.dropPacket; split <;> rfl
@[simp] theorem State.dropPacket_rq (lane : Lane) (bytes : List Byte) : (s.dropPacket lane bytes).rq = s.rq := by unfold State.dropPacket; split <;> rfl
@[simp] theorem State.dropPacket_ms (lane : Lane) (bytes : List Byte) : (s.dropPacket lane bytes).ms = s.ms := by unfold State.dropPacket; split <;> rfl
@[simp] theorem State.dropPacket_cu (lane : Lane) (bytes : List Byte) : (s.dropPacket lane bytes).cu = s.cu := by unfold State.dropPacket; split <;> rfl
@[simp] theorem State.dropPacket_ft (lane : Lane) (bytes : List Byte) : (s.dropPacket lane bytes).ft = s.ft := by unfold State.dropPacket; split <;> rfl
@[simp] theorem State.dropPacket_te (lane : Lane) (bytes : List Byte) : (s.dropPacket lane bytes).te = s.te := by unfold State.dropPacket; split <;> rfl
@[simp] theorem State.dropPacket_ports (lane : Lane) (bytes : List Byte) : (s.dropPacket lane bytes).ports = s.ports := by unfold State.dropPacket; split <;> rfl
@[simp] theorem State.dropPacket_cadence (lane : Lane) (bytes : List Byte) : (s.dropPacket lane bytes).cadence = s.cadence := by unfold State.dropPacket; split <;> rfl
@[simp] theorem State.dropPacket_cadenceTimer (lane : Lane) (bytes : List Byte) : (s.dropPacket lane bytes).cadenceTimer = s.cadenceTimer := by unfold State.dropPacket; split <;> rfl
@[simp] theorem State.dropPacket_rs (lane : Lane) (bytes : List Byte) : (s.dropPacket lane bytes).rs = s.rs := by unfold State.dropPacket; split <;> rfl
@[simp] theorem State.dropPacket_up (lane : Lane) (bytes : List Byte) : (s.dropPacket lane bytes).up = s.up := by unfold State.dropPacket; split <;> rfl
@[simp] theorem State.dropPacket_dn (lane : Lane) (bytes : List Byte) : (s.dropPacket lane bytes).dn = s.dn := by unfold State.dropPacket; split <;> rfl
@[simp] theorem State.dropPacket_out (lane : Lane) (bytes : List Byte) : (s.dropPacket lane bytes).out = s.out := by unfold State.dropPacket; split <;> rfl
@[simp] theorem State.dropPacket_pending (lane : Lane) (bytes : List Byte) : (s.dropPacket lane bytes).pending = s.pending := by unfold State.dropPacket; split <;> rfl

/-! ## `State.beginSend` -/

@[simp] theorem State.beginSend_now (src : SendSource) (turn : Turn) : (s.beginSend src turn).now = s.now := rfl
@[simp] theorem State.beginSend_held (src : SendSource) (turn : Turn) : (s.beginSend src turn).held = s.held := rfl
@[simp] theorem State.beginSend_phase (src : SendSource) (turn : Turn) : (s.beginSend src turn).phase = s.phase := rfl
@[simp] theorem State.beginSend_address (src : SendSource) (turn : Turn) : (s.beginSend src turn).address = s.address := rfl
@[simp] theorem State.beginSend_fullReset (src : SendSource) (turn : Turn) : (s.beginSend src turn).fullReset = s.fullReset := rfl
@[simp] theorem State.beginSend_resetAt (src : SendSource) (turn : Turn) : (s.beginSend src turn).resetAt = s.resetAt := rfl
@[simp] theorem State.beginSend_sessions (src : SendSource) (turn : Turn) : (s.beginSend src turn).sessions = s.sessions := rfl
@[simp] theorem State.beginSend_rq (src : SendSource) (turn : Turn) : (s.beginSend src turn).rq = s.rq := rfl
@[simp] theorem State.beginSend_ns (src : SendSource) (turn : Turn) : (s.beginSend src turn).ns = s.ns.beginFor src := rfl
@[simp] theorem State.beginSend_ms (src : SendSource) (turn : Turn) : (s.beginSend src turn).ms = s.ms := rfl
@[simp] theorem State.beginSend_cu (src : SendSource) (turn : Turn) : (s.beginSend src turn).cu = s.cu := rfl
@[simp] theorem State.beginSend_ft (src : SendSource) (turn : Turn) : (s.beginSend src turn).ft = s.ft := rfl
@[simp] theorem State.beginSend_te (src : SendSource) (turn : Turn) : (s.beginSend src turn).te = s.te := rfl
@[simp] theorem State.beginSend_ports (src : SendSource) (turn : Turn) : (s.beginSend src turn).ports = s.ports := rfl
@[simp] theorem State.beginSend_cadence (src : SendSource) (turn : Turn) : (s.beginSend src turn).cadence = s.cadence := rfl
@[simp] theorem State.beginSend_cadenceTimer (src : SendSource) (turn : Turn) : (s.beginSend src turn).cadenceTimer = s.cadenceTimer := rfl
@[simp] theorem State.beginSend_rs (src : SendSource) (turn : Turn) : (s.beginSend src turn).rs = s.rs := rfl
@[simp] theorem State.beginSend_dn (src : SendSource) (turn : Turn) : (s.beginSend src turn).dn = s.dn := rfl
@[simp] theorem State.beginSend_out (src : SendSource) (turn : Turn) : (s.beginSend src turn).out = s.out ++ [.upstream (s.packetOf src)] := rfl
@[simp] theorem State.beginSend_pending (src : SendSource) (turn : Turn) : (s.beginSend src turn).pending = s.pending := rfl

/-! ## `State.sendIdle` -/

@[simp] theorem State.sendIdle_now : (s.sendIdle).now = s.now := by unfold State.sendIdle; split <;> rfl
@[simp] theorem State.sendIdle_held : (s.sendIdle).held = s.held := by unfold State.sendIdle; split <;> rfl
@[simp] theorem State.sendIdle_phase : (s.sendIdle).phase = s.phase := by unfold State.sendIdle; split <;> rfl
@[simp] theorem State.sendIdle_address : (s.sendIdle).address = s.address := by unfold State.sendIdle; split <;> rfl
@[simp] theorem State.sendIdle_fullReset : (s.sendIdle).fullReset = s.fullReset := by unfold State.sendIdle; split <;> rfl
@[simp] theorem State.sendIdle_resetAt : (s.sendIdle).resetAt = s.resetAt := by unfold State.sendIdle; split <;> rfl
@[simp] theorem State.sendIdle_sessions : (s.sendIdle).sessions = s.sessions := by unfold State.sendIdle; split <;> rfl
@[simp] theorem State.sendIdle_rq : (s.sendIdle).rq = s.rq := by unfold State.sendIdle; split <;> rfl
@[simp] theorem State.sendIdle_ms : (s.sendIdle).ms = s.ms := by unfold State.sendIdle; split <;> rfl
@[simp] theorem State.sendIdle_cu : (s.sendIdle).cu = s.cu := by unfold State.sendIdle; split <;> rfl
@[simp] theorem State.sendIdle_ft : (s.sendIdle).ft = s.ft := by unfold State.sendIdle; split <;> rfl
@[simp] theorem State.sendIdle_te : (s.sendIdle).te = s.te := by unfold State.sendIdle; split <;> rfl
@[simp] theorem State.sendIdle_ports : (s.sendIdle).ports = s.ports := by unfold State.sendIdle; split <;> rfl
@[simp] theorem State.sendIdle_cadence : (s.sendIdle).cadence = s.cadence := by unfold State.sendIdle; split <;> rfl
@[simp] theorem State.sendIdle_cadenceTimer : (s.sendIdle).cadenceTimer = s.cadenceTimer := by unfold State.sendIdle; split <;> rfl
@[simp] theorem State.sendIdle_rs : (s.sendIdle).rs = s.rs := by unfold State.sendIdle; split <;> rfl
@[simp] theorem State.sendIdle_dn : (s.sendIdle).dn = s.dn := by unfold State.sendIdle; split <;> rfl
@[simp] theorem State.sendIdle_pending : (s.sendIdle).pending = s.pending := by unfold State.sendIdle; split <;> rfl

/-! ## `State.atStep` -/

@[simp] theorem State.atStep_now (step : LoadStep) : (s.atStep step).now = s.now := rfl
@[simp] theorem State.atStep_held (step : LoadStep) : (s.atStep step).held = s.held := rfl
@[simp] theorem State.atStep_phase (step : LoadStep) : (s.atStep step).phase = s.phase := rfl
@[simp] theorem State.atStep_address (step : LoadStep) : (s.atStep step).address = s.address := rfl
@[simp] theorem State.atStep_fullReset (step : LoadStep) : (s.atStep step).fullReset = s.fullReset := rfl
@[simp] theorem State.atStep_resetAt (step : LoadStep) : (s.atStep step).resetAt = s.resetAt := rfl
@[simp] theorem State.atStep_sessions (step : LoadStep) : (s.atStep step).sessions = s.sessions := rfl
@[simp] theorem State.atStep_rq (step : LoadStep) : (s.atStep step).rq = s.rq := rfl
@[simp] theorem State.atStep_ns (step : LoadStep) : (s.atStep step).ns = s.ns := rfl
@[simp] theorem State.atStep_ms (step : LoadStep) : (s.atStep step).ms = s.ms := rfl
@[simp] theorem State.atStep_cu (step : LoadStep) : (s.atStep step).cu = s.cu := rfl
@[simp] theorem State.atStep_ft (step : LoadStep) : (s.atStep step).ft = s.ft := rfl
@[simp] theorem State.atStep_te (step : LoadStep) : (s.atStep step).te = s.te := rfl
@[simp] theorem State.atStep_ports (step : LoadStep) : (s.atStep step).ports = s.ports := rfl
@[simp] theorem State.atStep_cadence (step : LoadStep) : (s.atStep step).cadence = s.cadence := rfl
@[simp] theorem State.atStep_cadenceTimer (step : LoadStep) : (s.atStep step).cadenceTimer = s.cadenceTimer := rfl
@[simp] theorem State.atStep_rs (step : LoadStep) : (s.atStep step).rs = { s.rs with load := s.rs.load.map fun l => { l with step := step } } := rfl
@[simp] theorem State.atStep_up (step : LoadStep) : (s.atStep step).up = s.up := rfl
@[simp] theorem State.atStep_dn (step : LoadStep) : (s.atStep step).dn = s.dn := rfl
@[simp] theorem State.atStep_out (step : LoadStep) : (s.atStep step).out = s.out := rfl
@[simp] theorem State.atStep_pending (step : LoadStep) : (s.atStep step).pending = s.pending := rfl

/-! ## `State.cutStore` -/

@[simp] theorem State.cutStore_now (cut : Mishap) : (s.cutStore cut).now = s.now := rfl
@[simp] theorem State.cutStore_held (cut : Mishap) : (s.cutStore cut).held = s.held := rfl
@[simp] theorem State.cutStore_phase (cut : Mishap) : (s.cutStore cut).phase = s.phase := rfl
@[simp] theorem State.cutStore_address (cut : Mishap) : (s.cutStore cut).address = s.address := rfl
@[simp] theorem State.cutStore_fullReset (cut : Mishap) : (s.cutStore cut).fullReset = s.fullReset := rfl
@[simp] theorem State.cutStore_resetAt (cut : Mishap) : (s.cutStore cut).resetAt = s.resetAt := rfl
@[simp] theorem State.cutStore_sessions (cut : Mishap) : (s.cutStore cut).sessions = s.sessions := rfl
@[simp] theorem State.cutStore_rq (cut : Mishap) : (s.cutStore cut).rq = s.rq := rfl
@[simp] theorem State.cutStore_ns (cut : Mishap) : (s.cutStore cut).ns = s.ns := rfl
@[simp] theorem State.cutStore_ms (cut : Mishap) : (s.cutStore cut).ms = s.ms := rfl
@[simp] theorem State.cutStore_cu (cut : Mishap) : (s.cutStore cut).cu = s.cu := rfl
@[simp] theorem State.cutStore_ft (cut : Mishap) : (s.cutStore cut).ft = s.ft := rfl
@[simp] theorem State.cutStore_te (cut : Mishap) : (s.cutStore cut).te = s.te := rfl
@[simp] theorem State.cutStore_ports (cut : Mishap) : (s.cutStore cut).ports = s.ports := rfl
@[simp] theorem State.cutStore_cadence (cut : Mishap) : (s.cutStore cut).cadence = s.cadence := rfl
@[simp] theorem State.cutStore_cadenceTimer (cut : Mishap) : (s.cutStore cut).cadenceTimer = s.cadenceTimer := rfl
@[simp] theorem State.cutStore_rs (cut : Mishap) : (s.cutStore cut).rs = s.rs.cut cut := rfl
@[simp] theorem State.cutStore_up (cut : Mishap) : (s.cutStore cut).up = s.up := rfl
@[simp] theorem State.cutStore_dn (cut : Mishap) : (s.cutStore cut).dn = s.dn := rfl
@[simp] theorem State.cutStore_out (cut : Mishap) : (s.cutStore cut).out = s.out := rfl
@[simp] theorem State.cutStore_pending (cut : Mishap) : (s.cutStore cut).pending = s.pending := rfl

/-! ## `State.raiseWriteFault` -/

@[simp] theorem State.raiseWriteFault_now (f : VerifyFailure) (key : Option RecKey) : (s.raiseWriteFault f key).now = s.now := rfl
@[simp] theorem State.raiseWriteFault_held (f : VerifyFailure) (key : Option RecKey) : (s.raiseWriteFault f key).held = s.held := rfl
@[simp] theorem State.raiseWriteFault_phase (f : VerifyFailure) (key : Option RecKey) : (s.raiseWriteFault f key).phase = s.phase := rfl
@[simp] theorem State.raiseWriteFault_address (f : VerifyFailure) (key : Option RecKey) : (s.raiseWriteFault f key).address = s.address := rfl
@[simp] theorem State.raiseWriteFault_fullReset (f : VerifyFailure) (key : Option RecKey) : (s.raiseWriteFault f key).fullReset = s.fullReset := rfl
@[simp] theorem State.raiseWriteFault_resetAt (f : VerifyFailure) (key : Option RecKey) : (s.raiseWriteFault f key).resetAt = s.resetAt := rfl
@[simp] theorem State.raiseWriteFault_sessions (f : VerifyFailure) (key : Option RecKey) : (s.raiseWriteFault f key).sessions = s.sessions := rfl
@[simp] theorem State.raiseWriteFault_rq (f : VerifyFailure) (key : Option RecKey) : (s.raiseWriteFault f key).rq = s.rq := rfl
@[simp] theorem State.raiseWriteFault_ns (f : VerifyFailure) (key : Option RecKey) : (s.raiseWriteFault f key).ns = s.ns.raise (.storeFault .writeFault f.bank f.addr key) := rfl
@[simp] theorem State.raiseWriteFault_ms (f : VerifyFailure) (key : Option RecKey) : (s.raiseWriteFault f key).ms = s.ms := rfl
@[simp] theorem State.raiseWriteFault_cu (f : VerifyFailure) (key : Option RecKey) : (s.raiseWriteFault f key).cu = s.cu := rfl
@[simp] theorem State.raiseWriteFault_ft (f : VerifyFailure) (key : Option RecKey) : (s.raiseWriteFault f key).ft = s.ft := rfl
@[simp] theorem State.raiseWriteFault_te (f : VerifyFailure) (key : Option RecKey) : (s.raiseWriteFault f key).te = s.te := rfl
@[simp] theorem State.raiseWriteFault_ports (f : VerifyFailure) (key : Option RecKey) : (s.raiseWriteFault f key).ports = s.ports := rfl
@[simp] theorem State.raiseWriteFault_cadence (f : VerifyFailure) (key : Option RecKey) : (s.raiseWriteFault f key).cadence = s.cadence := rfl
@[simp] theorem State.raiseWriteFault_cadenceTimer (f : VerifyFailure) (key : Option RecKey) : (s.raiseWriteFault f key).cadenceTimer = s.cadenceTimer := rfl
@[simp] theorem State.raiseWriteFault_rs (f : VerifyFailure) (key : Option RecKey) : (s.raiseWriteFault f key).rs = s.rs := rfl
@[simp] theorem State.raiseWriteFault_up (f : VerifyFailure) (key : Option RecKey) : (s.raiseWriteFault f key).up = s.up := rfl
@[simp] theorem State.raiseWriteFault_dn (f : VerifyFailure) (key : Option RecKey) : (s.raiseWriteFault f key).dn = s.dn := rfl
@[simp] theorem State.raiseWriteFault_out (f : VerifyFailure) (key : Option RecKey) : (s.raiseWriteFault f key).out = s.out := rfl
@[simp] theorem State.raiseWriteFault_pending (f : VerifyFailure) (key : Option RecKey) : (s.raiseWriteFault f key).pending = s.pending := rfl

/-! ## `State.raiseAll` -/

@[simp] theorem State.raiseAll_now (ds : List Detail) : (s.raiseAll ds).now = s.now := by
  induction ds generalizing s with
  | nil => rfl
  | cons d ds ih => simpa [State.raiseAll] using ih (s.raise d)
@[simp] theorem State.raiseAll_held (ds : List Detail) : (s.raiseAll ds).held = s.held := by
  induction ds generalizing s with
  | nil => rfl
  | cons d ds ih => simpa [State.raiseAll] using ih (s.raise d)
@[simp] theorem State.raiseAll_phase (ds : List Detail) : (s.raiseAll ds).phase = s.phase := by
  induction ds generalizing s with
  | nil => rfl
  | cons d ds ih => simpa [State.raiseAll] using ih (s.raise d)
@[simp] theorem State.raiseAll_address (ds : List Detail) : (s.raiseAll ds).address = s.address := by
  induction ds generalizing s with
  | nil => rfl
  | cons d ds ih => simpa [State.raiseAll] using ih (s.raise d)
@[simp] theorem State.raiseAll_fullReset (ds : List Detail) : (s.raiseAll ds).fullReset = s.fullReset := by
  induction ds generalizing s with
  | nil => rfl
  | cons d ds ih => simpa [State.raiseAll] using ih (s.raise d)
@[simp] theorem State.raiseAll_resetAt (ds : List Detail) : (s.raiseAll ds).resetAt = s.resetAt := by
  induction ds generalizing s with
  | nil => rfl
  | cons d ds ih => simpa [State.raiseAll] using ih (s.raise d)
@[simp] theorem State.raiseAll_sessions (ds : List Detail) : (s.raiseAll ds).sessions = s.sessions := by
  induction ds generalizing s with
  | nil => rfl
  | cons d ds ih => simpa [State.raiseAll] using ih (s.raise d)
@[simp] theorem State.raiseAll_rq (ds : List Detail) : (s.raiseAll ds).rq = s.rq := by
  induction ds generalizing s with
  | nil => rfl
  | cons d ds ih => simpa [State.raiseAll] using ih (s.raise d)
@[simp] theorem State.raiseAll_ms (ds : List Detail) : (s.raiseAll ds).ms = s.ms := by
  induction ds generalizing s with
  | nil => rfl
  | cons d ds ih => simpa [State.raiseAll] using ih (s.raise d)
@[simp] theorem State.raiseAll_cu (ds : List Detail) : (s.raiseAll ds).cu = s.cu := by
  induction ds generalizing s with
  | nil => rfl
  | cons d ds ih => simpa [State.raiseAll] using ih (s.raise d)
@[simp] theorem State.raiseAll_ft (ds : List Detail) : (s.raiseAll ds).ft = s.ft := by
  induction ds generalizing s with
  | nil => rfl
  | cons d ds ih => simpa [State.raiseAll] using ih (s.raise d)
@[simp] theorem State.raiseAll_te (ds : List Detail) : (s.raiseAll ds).te = s.te := by
  induction ds generalizing s with
  | nil => rfl
  | cons d ds ih => simpa [State.raiseAll] using ih (s.raise d)
@[simp] theorem State.raiseAll_ports (ds : List Detail) : (s.raiseAll ds).ports = s.ports := by
  induction ds generalizing s with
  | nil => rfl
  | cons d ds ih => simpa [State.raiseAll] using ih (s.raise d)
@[simp] theorem State.raiseAll_cadence (ds : List Detail) : (s.raiseAll ds).cadence = s.cadence := by
  induction ds generalizing s with
  | nil => rfl
  | cons d ds ih => simpa [State.raiseAll] using ih (s.raise d)
@[simp] theorem State.raiseAll_cadenceTimer (ds : List Detail) : (s.raiseAll ds).cadenceTimer = s.cadenceTimer := by
  induction ds generalizing s with
  | nil => rfl
  | cons d ds ih => simpa [State.raiseAll] using ih (s.raise d)
@[simp] theorem State.raiseAll_rs (ds : List Detail) : (s.raiseAll ds).rs = s.rs := by
  induction ds generalizing s with
  | nil => rfl
  | cons d ds ih => simpa [State.raiseAll] using ih (s.raise d)
@[simp] theorem State.raiseAll_up (ds : List Detail) : (s.raiseAll ds).up = s.up := by
  induction ds generalizing s with
  | nil => rfl
  | cons d ds ih => simpa [State.raiseAll] using ih (s.raise d)
@[simp] theorem State.raiseAll_dn (ds : List Detail) : (s.raiseAll ds).dn = s.dn := by
  induction ds generalizing s with
  | nil => rfl
  | cons d ds ih => simpa [State.raiseAll] using ih (s.raise d)
@[simp] theorem State.raiseAll_out (ds : List Detail) : (s.raiseAll ds).out = s.out := by
  induction ds generalizing s with
  | nil => rfl
  | cons d ds ih => simpa [State.raiseAll] using ih (s.raise d)
@[simp] theorem State.raiseAll_pending (ds : List Detail) : (s.raiseAll ds).pending = s.pending := by
  induction ds generalizing s with
  | nil => rfl
  | cons d ds ih => simpa [State.raiseAll] using ih (s.raise d)

end Sys2Proof.Machine
end

