-- ==== Sys2Proof/Laws/Requests.lean ====
section
/-!
SUPPORT. How a request reaches its body and how it is answered: one lemma for each way, which later proofs cite
instead of unfolding the sequence rules.
-/

namespace Sys2Proof.Machine

-- One theorem after another: as many at once as the whole package holds would need a stack each.
set_option Elab.async false

/-! ## Time and the hold in reset -/

theorem State.take_released {s : State} (h : s.held = false) (dt : Nat) (f : State → State) :
    s.take dt f = .next (f (s.elapse dt)) := by simp [State.take, h]

theorem State.take_held {s : State} (h : s.held = true) (dt : Nat) (f : State → State) :
    s.take dt f = .next (s.elapse dt) := by simp [State.take, h]

/-- A packet on a lane is taken while the ports receive. -/
theorem State.receive_heard {dt : Nat} {s : State} (h : s.Receives dt) (f : State → State) :
    s.receive dt f = .next (f (s.elapse dt)) := by simp [State.receive, State.hears, h.1, h.2]

/-- A packet on a lane is lost while they do not. -/
theorem State.receive_lost {dt : Nat} {s : State} (h : ¬s.Receives dt) (f : State → State) :
    s.receive dt f = .next (s.elapse dt) := by
  have h' : (s.elapse dt).hears = false := by
    cases hh : s.held <;> simp_all [State.hears, State.Receives]
  simp [State.receive, h']

/-- A return-lane packet whose reception is in progress is taken. -/
theorem State.completeReception_taken {dt : Nat} {s : State} (h : s.Receives dt) (hr : s.dn.receiving = true)
    (f : State → State) : s.completeReception dt f = .next (f (s.elapse dt)) := by
  simp [State.completeReception, State.receive_heard h, State.elapse, hr]

/-- A return-lane packet whose reception is not in progress is lost. -/
theorem State.completeReception_lost {s : State} (hr : s.dn.receiving = false) (dt : Nat) (f : State → State) :
    s.completeReception dt f = .next (s.elapse dt) := by
  simp [State.completeReception, State.receive, State.elapse, hr]

/-- A command taken by `State.take` answers a next state. -/
theorem State.take_next (s : State) (dt : Nat) (f : State → State) : ∃ t, s.take dt f = .next t := ⟨_, rfl⟩

/-! ## Session slots -/

theorem State.findSession_congr {s t : State} (h : s.sessions = t.sessions) (key : Byte) :
    s.findSession key = t.findSession key := by simp [State.findSession, h]

/-- What finding a session says. -/
theorem State.findSession_some {s : State} {key : Byte} {i : Fin 4} {d : Session}
    (h : s.findSession key = some (i, d)) : s.sessions[i] = some d ∧ d.key = key := by
  simp only [State.findSession, List.findSome?_eq_some_iff] at h
  obtain ⟨_, a, _, _, h, _⟩ := h
  split at h
  · split at h
    · obtain ⟨rfl, rfl⟩ := by simpa using h
      exact ⟨‹_›, ‹_›⟩
    · cases h
  · cases h

/-- What finding none says. -/
theorem State.findSession_none {s : State} {key : Byte} (h : s.findSession key = none) (i : Fin 4) (d : Session)
    (hd : s.sessions[i] = some d) : d.key ≠ key := by
  simp only [State.findSession, List.findSome?_eq_none_iff] at h
  have hi : i ∈ sessionIndices := by clear hd; revert i; decide
  have := h i hi
  rw [hd] at this
  intro hk
  simp [hk] at this

/-- A slot that `freeSession` names is FREE. -/
theorem State.freeSession_some {s : State} {i : Fin 4} (h : s.freeSession = some i) : s.sessions[i] = none := by
  have := List.find?_some h
  simpa using this

/-! ## Vectors -/

theorem upd_same {α : Type} {n : Nat} (v : Vector α n) (i : Fin n) (x : α) : (upd v i x)[i] = x := by
  simp [upd]

theorem upd_other {α : Type} {n : Nat} (v : Vector α n) {i j : Fin n} (h : i ≠ j) (x : α) : (upd v i x)[j] = v[j] := by
  have : i.1 ≠ j.1 := fun e => h (Fin.ext e)
  simp [upd, this]

theorem upd_apply {α : Type} {n : Nat} (v : Vector α n) (i j : Fin n) (x : α) :
    (upd v i x)[j] = if i = j then x else v[j] := by
  split
  · subst_vars; exact upd_same ..
  · exact upd_other _ ‹_› _

/-! ## Received -/

theorem State.received_sessions (dt : Nat) (code : Byte) (c : Ctl) (rq : Fin 8) (s : State) :
    (s.received dt code c rq).sessions = s.sessions := by simp [State.received]
theorem State.received_now (dt : Nat) (code : Byte) (c : Ctl) (rq : Fin 8) (s : State) :
    (s.received dt code c rq).now = s.now + dt := by simp [State.received]
theorem State.received_phase (dt : Nat) (code : Byte) (c : Ctl) (rq : Fin 8) (s : State) :
    (s.received dt code c rq).phase = s.phase := by simp [State.received]
theorem State.received_address (dt : Nat) (code : Byte) (c : Ctl) (rq : Fin 8) (s : State) :
    (s.received dt code c rq).address = s.address := by simp [State.received]
theorem State.received_fullReset (dt : Nat) (code : Byte) (c : Ctl) (rq : Fin 8) (s : State) :
    (s.received dt code c rq).fullReset = s.fullReset := by simp [State.received]
theorem State.received_resetAt (dt : Nat) (code : Byte) (c : Ctl) (rq : Fin 8) (s : State) :
    (s.received dt code c rq).resetAt = s.resetAt := by simp [State.received]
theorem State.received_ms (dt : Nat) (code : Byte) (c : Ctl) (rq : Fin 8) (s : State) :
    (s.received dt code c rq).ms = s.ms := by simp [State.received]
theorem State.received_cu (dt : Nat) (code : Byte) (c : Ctl) (rq : Fin 8) (s : State) :
    (s.received dt code c rq).cu = s.cu := by simp [State.received]
theorem State.received_rs (dt : Nat) (code : Byte) (c : Ctl) (rq : Fin 8) (s : State) :
    (s.received dt code c rq).rs = s.rs := by simp [State.received]
theorem State.received_ports (dt : Nat) (code : Byte) (c : Ctl) (rq : Fin 8) (s : State) :
    (s.received dt code c rq).ports = s.ports := by simp [State.received]
theorem State.received_rq (dt : Nat) (code : Byte) (c : Ctl) (rq : Fin 8) (s : State) :
    (s.received dt code c rq).rq = s.rq.reserve rq c.key c.seq code := rfl
theorem State.received_up (dt : Nat) (code : Byte) (c : Ctl) (rq : Fin 8) (s : State) :
    (s.received dt code c rq).up = s.up := by simp [State.received]
theorem State.received_findSession (dt : Nat) (code : Byte) (c : Ctl) (rq : Fin 8) (s : State) (key : Byte) :
    (s.received dt code c rq).findSession key = s.findSession key :=
  State.findSession_congr (State.received_sessions ..) key

/-! ## An addressed request -/

/-- An addressed request is handled in the state `received`. -/
theorem control_addressed {dt : Nat} {c : Ctl} {s : State} {rq : Fin 8} (h : Addressed dt c s rq) (code : Byte)
    (onBroadcast : State → State) (handle : Fin 8 → State → State) :
    (s.elapse dt).control code c onBroadcast handle = handle rq (s.received dt code c rq) := by
  have hd : c.dest ≠ 0 ∧ c.dest = (s.elapse dt).address := ⟨h.assigned, h.dest⟩
  have hf : (s.elapse dt).arrive.fullReset.isSome = false := by simp [h.noReset]
  have hs : (s.elapse dt).arrive.rq.freeSlot = some rq := by simp [h.slot]
  rw [State.control, if_neg h.notAll, if_pos hd, State.addressed, hf, hs]
  simp [State.received]

/-- A broadcast of a kind of R155 is executed by its body. -/
theorem control_broadcast {dt : Nat} {c : Ctl} {s : State} (h : Broadcast dt c s) (kind : ReqKind)
    (hk : kind.broadcasts = true) (body : Body) :
    (s.elapse dt).request kind body c =
      (body ⟨.broadcast, none, c.ops⟩
        (((s.elapse dt).forward (controlPacket (reqCode kind) c)).arrive)).1 := by
  simp [State.request, State.control, h.dest, State.broadcast, hk, h.running, h.noReset]

/-- A sessionless request is executed by its body and answered. -/
theorem request_sessionless {dt : Nat} {c : Ctl} {s : State} {rq : Fin 8} (h : Sessionless dt c s rq) (kind : ReqKind)
    (hk : maySessionless kind = true) (body : Body) (t : State) (st : Status) (res : List Byte)
    (hb : body ⟨.sessionless, some rq, c.ops⟩ (s.received dt (reqCode kind) c rq) = (t, .answer st res)) :
    request kind body dt c s = .next (t.answered (reqCode kind) c rq st res) := by
  rw [request, State.receive_heard h.addressed.released, State.request, control_addressed h.addressed]
  simp [State.tested, State.received_phase, h.running, h.keyless, hk, State.unsequenced, hb, State.answered,
    State.respond, State.fill]

/-- The next request of a READY session reaches its body. -/
theorem request_inTurn {dt : Nat} {c : Ctl} {s : State} {rq : Fin 8} {i : Fin 4} {d : Session} (h : InTurn dt c s rq i d)
    (kind : ReqKind) (body : Body) (leaseEnd : Nat) (cache : Cached) (hr : d.state = .ready leaseEnd cache) :
    request kind body dt c s =
      .next (State.conclude kind c rq i (leaseEnd - (s.now + dt))
        (body ⟨.session i c.key, some rq, c.ops⟩ (s.received dt (reqCode kind) c rq))) := by
  rw [request, State.receive_heard h.addressed.released, State.request, control_addressed h.addressed]
  have hl : c.seq ≠ d.last := by
    rw [h.next]; intro e
    have := congrArg BitVec.toNat e
    simp [BitVec.toNat_add] at this
    have := d.last.isLt
    omega
  have hp : ¬((s.received dt (reqCode kind) c rq).phase = .starting ∧ kind ≠ .readStatus) := by
    simp [State.received_phase, h.running]
  rw [State.tested, if_neg hp, if_neg h.keyed, State.sequenced, State.received_findSession, h.found]
  simp only [hr]
  rw [if_neg hl, if_pos h.next, State.received_now]

/-- The next request of a READY session, answered at once: the body left session `d'` in the slot. -/
theorem request_answered {dt : Nat} {c : Ctl} {s : State} {rq : Fin 8} {i : Fin 4} {d d' : Session} (h : InTurn dt c s rq i d)
    (kind : ReqKind) (body : Body) (t : State) (st : Status) (res : List Byte)
    (hb : body ⟨.session i c.key, some rq, c.ops⟩ (s.received dt (reqCode kind) c rq) = (t, .answer st res))
    (hi : t.sessions[i] = some d') :
    request kind body dt c s = .next (t.executedIn (reqCode kind) c rq i d' st res) := by
  obtain ⟨e, cache, hr⟩ := h.ready
  rw [request_inTurn h kind body e cache hr, hb]
  simp only [State.conclude, State.modSession, State.executedIn, State.answered, State.respond, State.fill]
  rw [hi]
  rfl

/-- The next request of a READY session, accepted as a long request. -/
theorem request_accepted {dt : Nat} {c : Ctl} {s : State} {rq : Fin 8} {i : Fin 4} {d : Session} (h : InTurn dt c s rq i d)
    (kind : ReqKind) (body : Body) (t : State) (leaseEnd : Nat) (cache : Cached)
    (hr : d.state = .ready leaseEnd cache)
    (hb : body ⟨.session i c.key, some rq, c.ops⟩ (s.received dt (reqCode kind) c rq) = (t, .accepted))
    (hi : t.sessions = s.sessions) :
    request kind body dt c s =
      let w : Session := { d with last := c.seq, state := .waiting (leaseEnd - (s.now + dt)) kind c.seq rq }
      .next { t with sessions := upd s.sessions i (some w) } := by
  rw [request_inTurn h kind body leaseEnd cache hr, hb]
  simp [State.conclude, State.modSession, hi, (State.findSession_some h.found).1]

/-- A request dropped for want of a response slot, or while a FULL reset is pending, leaves what its arrival left. -/
theorem request_dropped {c : Ctl} {s : State} (dt : Nat) (kind : ReqKind) (body : Body) (hh : s.Receives dt)
    (hd : c.dest = s.address) (h0 : c.dest ≠ 0) (h255 : c.dest ≠ 255)
    (hf : s.fullReset ≠ none ∨ s.rq.freeSlot = none) :
    request kind body dt c s = .next (s.elapse dt).arrive := by
  have hd' : c.dest ≠ 0 ∧ c.dest = (s.elapse dt).address := ⟨h0, hd⟩
  rw [request, State.receive_heard hh, State.request, State.control, if_neg h255, if_pos hd', State.addressed]
  split
  · rfl
  · rename_i hn
    have hn : s.fullReset = none := by simpa using hn
    have hq : (s.elapse dt).arrive.rq.freeSlot = none := by simp [hf.resolve_left (absurd hn)]
    rw [hq]

end Sys2Proof.Machine
end

