-- ==== Sys2Proof/Laws/Answers.lean ====
section
/-!
SUPPORT. How the requests of one shape are answered, from what their body does: one lemma for a session request, one for
a request that may also come sessionless, one for a request that may also be broadcast.
-/

namespace Sys2Proof.Machine

-- One theorem after another: as many at once as the whole package holds would need a stack each.
set_option Elab.async false

theorem upd_upd {α : Type} {n : Nat} (v : Vector α n) (i : Fin n) (x y : α) : upd (upd v i x) i y = upd v i y := by
  apply Vector.ext; intro j hj
  simp [upd, Vector.getElem_set]

theorem upd_self {α : Type} {n : Nat} (v : Vector α n) (i : Fin n) : upd v i v[i] = v := by
  apply Vector.ext; intro j hj
  simp only [upd, Vector.getElem_set]
  split
  · subst_vars; rfl
  · rfl

/-- What a request is executed in has the owning blocks as they were: time has passed, the Frame Tracker has seen the
packet, a slot may be reserved or the packet forwarded. -/
structure Tested (s t : State) : Prop where
  sessions : t.sessions = s.sessions
  ms       : t.ms = s.ms
  cu       : t.cu = s.cu
  rs       : t.rs = s.rs
  ports    : t.ports = s.ports
  cadence  : t.cadence = s.cadence
  frame    : t.ft.frame = s.ft.frame
  phase    : t.phase = s.phase
  address  : t.address = s.address
  up       : t.up = s.up
  dn       : t.dn = s.dn
  classes  : ∀ k : NoticeKind, t.ns.slots[k.idx].cls = s.ns.slots[k.idx].cls

theorem NoticeKind.idx_injective {a b : NoticeKind} (h : a.idx = b.idx) : a = b := by
  cases a <;> cases b <;> first | rfl | exact absurd h (by decide)

/-- A raise leaves every class as it was. -/
theorem Notices.raise_cls (d : Detail) (n : Notices) (k : NoticeKind) :
    (n.raise d).slots[k.idx].cls = n.slots[k.idx].cls := by
  unfold Notices.raise
  dsimp only
  repeat' split
  all_goals first
    | rfl
    | (simp only [upd_apply]; split
       · rename_i h
         have := NoticeKind.idx_injective h
         subst this; rfl
       · rfl)

theorem Tracker.packet_frame (now : Nat) (t : Tracker) : (t.packet now).frame = t.frame := by
  unfold Tracker.packet; dsimp only; split <;> rfl

theorem State.arrive_cls (s : State) (k : NoticeKind) : s.arrive.ns.slots[k.idx].cls = s.ns.slots[k.idx].cls := by
  unfold State.arrive State.noticeLock
  split
  · rfl
  · exact Notices.raise_cls ..

theorem State.arrive_frame (s : State) : s.arrive.ft.frame = s.ft.frame := by
  unfold State.arrive State.noticeLock
  split <;> exact Tracker.packet_frame ..

theorem Tested.received (dt : Nat) (code : Byte) (c : Ctl) (rq : Fin 8) (s : State) :
    Tested s (s.received dt code c rq) where
  sessions := State.received_sessions ..
  ms := State.received_ms ..
  cu := State.received_cu ..
  rs := State.received_rs ..
  ports := State.received_ports ..
  cadence := by simp [State.received]
  frame := by simp [State.received, Tracker.packet_frame]
  phase := State.received_phase ..
  address := State.received_address ..
  up := State.received_up ..
  dn := by simp [State.received]
  classes k := State.arrive_cls _ k

theorem Tested.forwarded (dt : Nat) (bytes : List Byte) (s : State) : Tested s ((s.elapse dt).forward bytes).arrive where
  sessions := by simp
  ms := by simp
  cu := by simp
  rs := by simp
  ports := by simp
  cadence := by simp
  frame := by simp [Tracker.packet_frame]
  phase := by simp
  address := by simp
  up := by simp
  dn := by simp
  classes k := by rw [State.arrive_cls]; simp

/-- A session request whose body answers at once, with the session as the body left it. -/
theorem answeredInSession {kind : ReqKind} {cmd : Instr} {dt : Nat} {c : Ctl} {s : State} {rq : Fin 8} {i : Fin 4}
    {d d' : Session} {st : Status} {res : State → List Byte} {eff : State → State} (body : Body)
    (h : InTurn dt c s rq i d) (hx : exec cmd s = request kind body dt c s)
    (hb : ∀ t, Tested s t → ∃ u : State, body ⟨.session i c.key, some rq, c.ops⟩ t = (u, .answer st (res t)) ∧
      u.sessions[i] = some d' ∧
      { u with sessions := upd u.sessions i none } = { eff t with sessions := upd (eff t).sessions i none }) :
    AnsweredInSession kind cmd dt c s rq i d' st res eff := by
  obtain ⟨u, h1, h2, h3⟩ := hb _ (Tested.received dt (reqCode kind) c rq s)
  rw [AnsweredInSession, hx, request_answered h kind body u st _ h1 h2]
  congr 1
  simp only [State.executedIn, State.answered]
  have hs : upd u.sessions i none = upd (eff (s.received dt (reqCode kind) c rq)).sessions i none :=
    congrArg State.sessions h3
  have hs' : ∀ x, upd u.sessions i x = upd (eff (s.received dt (reqCode kind) c rq)).sessions i x := by
    intro x
    have := congrArg (fun v => upd v i x) hs
    simpa [upd_upd] using this
  rw [hs']
  generalize eff (s.received dt (reqCode kind) c rq) = e at *
  cases u; cases e
  simp only [State.mk.injEq] at h3 ⊢
  simp_all

/-- The usual case: the body leaves the session slots alone. -/
theorem answeredInSession_same {kind : ReqKind} {cmd : Instr} {dt : Nat} {c : Ctl} {s : State} {rq : Fin 8} {i : Fin 4}
    {d : Session} {st : Status} {res : State → List Byte} {eff : State → State} (body : Body)
    (h : InTurn dt c s rq i d) (hx : exec cmd s = request kind body dt c s)
    (hb : ∀ t, Tested s t → body ⟨.session i c.key, some rq, c.ops⟩ t = (eff t, .answer st (res t)))
    (he : ∀ t, (eff t).sessions = t.sessions) :
    AnsweredInSession kind cmd dt c s rq i d st res eff :=
  answeredInSession body h hx fun t ht =>
    ⟨eff t, hb t ht, by rw [he, ht.sessions]; exact (State.findSession_some h.found).1, rfl⟩

/-- A request that a session may send, or anyone sessionless. -/
theorem answeredEither {kind : ReqKind} {cmd : Instr} {dt : Nat} {c : Ctl} {s : State} {st : Status}
    {res : State → List Byte} {eff : Issuer → State → State} (body : Body)
    (hm : maySessionless kind = true) (hx : exec cmd s = request kind body dt c s)
    (hb : ∀ (k : Call) (t : State), k.ops = c.ops → Tested s t → body k t = (eff k.issuer t, .answer st (res t)))
    (he : ∀ o t, (eff o t).sessions = t.sessions) :
    AnsweredEither kind cmd dt c s st res eff :=
  ⟨fun _ _ _ h => answeredInSession_same body h hx (fun t ht => hb _ t rfl ht) (he _),
   fun rq h => by
    rw [hx, request_sessionless h kind hm body _ st _ (hb ⟨.sessionless, some rq, c.ops⟩ _ rfl (Tested.received ..))]
    rfl⟩

/-- A request that a session may send, or anyone sessionless, or a broadcast carry. -/
theorem answeredAny {kind : ReqKind} {cmd : Instr} {dt : Nat} {c : Ctl} {s : State} {st : Status}
    {res : State → List Byte} {eff : Issuer → State → State} (body : Body)
    (hm : maySessionless kind = true) (hk : kind.broadcasts = true) (hx : exec cmd s = request kind body dt c s)
    (hb : ∀ (k : Call) (t : State), k.ops = c.ops → Tested s t → body k t = (eff k.issuer t, .answer st (res t)))
    (he : ∀ o t, (eff o t).sessions = t.sessions) :
    AnsweredAny kind cmd dt c s st res eff :=
  ⟨answeredEither body hm hx hb he, fun h => by
    rw [hx, request, State.receive_heard h.released, control_broadcast h kind hk,
      hb ⟨.broadcast, none, c.ops⟩ _ rfl (Tested.forwarded ..)]
    rfl⟩

end Sys2Proof.Machine
end

