-- ==== Sys2Proof/Laws/Memory.lean ====
section
/-!
SUPPORT. Addressed storage: a read after a write, and that every operation keeps the canonical form.
-/

namespace Sys2Proof.Machine

-- One theorem after another: as many at once as the whole package holds would need a stack each.
set_option Elab.async false

variable {α : Type} [DecidableEq α] {dflt : Nat → α}

/-! ## The canonical form from an address on -/

theorem cellsFrom_mono {low low' : Nat} (h : low' ≤ low) {m : Cells α} (hm : cellsFrom dflt low m = true) :
    cellsFrom dflt low' m = true := by
  cases m with
  | nil => rfl
  | cons e m =>
    simp only [cellsFrom, Bool.and_eq_true, decide_eq_true_eq] at hm ⊢
    exact ⟨⟨by omega, hm.1.2⟩, hm.2⟩

/-- Below its first entry canonical storage reads as unlisted. -/
theorem cellRead_below {low a : Nat} {m : Cells α} (hm : cellsFrom dflt low m = true) (h : a < low) :
    cellRead dflt m a = dflt a := by
  cases m with
  | nil => rfl
  | cons e m =>
    simp only [cellsFrom, Bool.and_eq_true, decide_eq_true_eq] at hm
    rw [cellRead, if_pos (by omega)]

/-- A write keeps the canonical form. -/
theorem cellsFrom_cellWrite {low a : Nat} (v : α) {m : Cells α} (hm : cellsFrom dflt low m = true) (h : low ≤ a) :
    cellsFrom dflt low (cellWrite dflt a v m) = true := by
  induction m generalizing low with
  | nil =>
    unfold cellWrite; split
    · rfl
    · simp [cellsFrom, *]
  | cons e m ih =>
    obtain ⟨b, u⟩ := e
    simp only [cellsFrom, Bool.and_eq_true, decide_eq_true_eq] at hm
    unfold cellWrite
    split
    · split
      · simp only [cellsFrom, Bool.and_eq_true, decide_eq_true_eq]; exact hm
      · simp only [cellsFrom, Bool.and_eq_true, decide_eq_true_eq]
        exact ⟨⟨h, ‹_›⟩, ⟨by omega, hm.1.2⟩, hm.2⟩
    · split
      · split
        · exact cellsFrom_mono (by omega) hm.2
        · simp only [cellsFrom, Bool.and_eq_true, decide_eq_true_eq]
          exact ⟨⟨h, ‹_›⟩, by rw [show a = b from ‹_›]; exact hm.2⟩
      · simp only [cellsFrom, Bool.and_eq_true, decide_eq_true_eq]
        exact ⟨hm.1, ih hm.2 (by omega)⟩

/-- A write keeps the canonical form. -/
theorem Memory.wf_write (a : Nat) (v : α) {m : Cells α} (hm : Memory.wf dflt m = true) :
    Memory.wf dflt (cellWrite dflt a v m) = true := cellsFrom_cellWrite v hm (Nat.zero_le _)

/-- A run of writes keeps the canonical form. -/
theorem Memory.wf_writeList (a : Nat) (vs : List α) {m : Cells α} (hm : Memory.wf dflt m = true) :
    Memory.wf dflt (cellWriteList dflt a vs m) = true := by
  induction vs generalizing a m with
  | nil => exact hm
  | cons v vs ih => exact ih (a + 1) (Memory.wf_write a v hm)

/-- Any cells put into canonical form have it. -/
theorem Memory.wf_cellsOf (cs : Cells α) : Memory.wf dflt (cellsOf dflt cs) = true := by
  have h : ∀ (cs : Cells α) (m : Cells α), Memory.wf dflt m = true →
      Memory.wf dflt (cs.foldl (fun m c => cellWrite dflt c.1 c.2 m) m) = true := by
    intro cs
    induction cs with
    | nil => exact fun m hm => hm
    | cons c cs ih => exact fun m hm => ih _ (Memory.wf_write c.1 c.2 hm)
  exact h cs [] rfl

/-! ## A read after a write -/

theorem cellRead_write_from {low a : Nat} (v : α) {m : Cells α} (hm : cellsFrom dflt low m = true) (b : Nat) :
    cellRead dflt (cellWrite dflt a v m) b = if b = a then v else cellRead dflt m b := by
  induction m generalizing low with
  | nil =>
    unfold cellWrite
    by_cases hv : v = dflt a
    · rw [if_pos hv]; split
      · rename_i h; rw [h, hv]; rfl
      · rfl
    · rw [if_neg hv]; simp only [cellRead]
      split
      · rw [if_neg (by omega)]
      · rfl
  | cons e m ih =>
    obtain ⟨c, u⟩ := e
    simp only [cellsFrom, Bool.and_eq_true, decide_eq_true_eq] at hm
    unfold cellWrite
    by_cases h1 : a < c
    · rw [if_pos h1]
      by_cases hv : v = dflt a
      · rw [if_pos hv]; split
        · rename_i h; rw [h, hv, cellRead, if_pos h1]
        · rfl
      · rw [if_neg hv]; simp only [cellRead]
        by_cases h2 : b < a
        · rw [if_pos h2, if_neg (by omega), if_pos (by omega)]
        · rw [if_neg h2]
    · rw [if_neg h1]
      by_cases h2 : a = c
      · subst h2
        rw [if_pos rfl]
        by_cases hv : v = dflt a
        · rw [if_pos hv]; simp only [cellRead]
          by_cases hb : b = a
          · rw [if_pos hb, hb, cellRead_below hm.2 (by omega), hv]
          · rw [if_neg hb, if_neg hb]
            by_cases hl : b < a
            · rw [if_pos hl, cellRead_below hm.2 (by omega)]
            · rw [if_neg hl]
        · rw [if_neg hv]; simp only [cellRead]
          by_cases hl : b < a
          · rw [if_pos hl, if_neg (by omega), if_pos hl]
          · rw [if_neg hl, if_neg hl]
            by_cases hb : b = a
            · rw [if_pos hb, if_pos hb]
            · rw [if_neg hb, if_neg hb, if_neg hb]
      · rw [if_neg h2]; simp only [cellRead]
        by_cases hl : b < c
        · rw [if_pos hl, if_neg (by omega), if_pos hl]
        · rw [if_neg hl, if_neg hl]
          by_cases hb : b = c
          · rw [if_pos hb, if_neg (by omega), if_pos hb]
          · rw [if_neg hb, if_neg hb, ih hm.2]

/-- A read where a write went gives the value, and elsewhere what was there. -/
theorem cellRead_cellWrite {m : Cells α} (hm : Memory.wf dflt m = true) (a b : Nat) (v : α) :
    cellRead dflt (cellWrite dflt a v m) b = if b = a then v else cellRead dflt m b := cellRead_write_from v hm b

/-! ## The banks -/

/-- A header kept from becoming ACTIVE keeps the canonical form. -/
theorem wf_keepHeader (before : Cells Word) {after : Cells Word} (h : Memory.wf erased after = true) :
    Memory.wf erased (keepHeader before after) = true := by
  unfold keepHeader; split
  · exact Memory.wf_write _ _ h
  · exact h

/-- An erasure makes no header ACTIVE that was not ACTIVE before with the same generation (R124, R127). -/
theorem keepHeader_active {before after : Cells Word} (hw : Memory.wf erased after = true)
    (h : headerActive (keepHeader before after) = true) :
    headerActive before = true ∧ headerGeneration before = headerGeneration (keepHeader before after) := by
  unfold keepHeader at h ⊢
  split at h
  · simp [headerActive, bankRead, cellRead_cellWrite hw, wordActive] at h
  · rename_i hn
    rw [if_neg hn]
    simpa [h] using hn

/-- An access keeps the canonical form of its bank. -/
theorem Access.wf_result (a : Access) (e : Ending) {c : Cells Word} (hc : Memory.wf erased c = true) :
    Memory.wf erased (a.result e c) = true := by
  cases a with
  | program b addr w => exact Memory.wf_write _ _ hc
  | state b addr w use => exact Memory.wf_write _ _ hc
  | erase b => cases e with
    | made => rfl
    | faulty m => exact wf_keepHeader _ (Memory.wf_cellsOf _)
    | cut m => exact wf_keepHeader _ (Memory.wf_cellsOf _)

/-- A word of which bits were cleared has no bit that it had not. -/
theorem and_clears (old v : Word) : (old &&& v) &&& old = old &&& v := by
  rw [BitVec.and_comm, ← BitVec.and_assoc, BitVec.and_self]

/-- A state word's programming clears bits and sets none. -/
theorem StateUse.reading_clears (use : StateUse) (old new : Word) (e : Ending) :
    use.reading old new e &&& old = use.reading old new e := by
  cases e with
  | made => exact and_clears _ _
  | faulty m =>
    cases use <;> dsimp only [StateUse.reading] <;>
      first | exact and_clears _ _ | (split <;> first | exact and_clears _ _ | exact BitVec.and_self)
  | cut m =>
    dsimp only [StateUse.reading]
    split
    · exact and_clears _ _
    · exact BitVec.and_self

/-- What a cut leaves of a state word is the word as it was or a reading that the operation admits (R127). -/
theorem StateUse.reading_cut (use : StateUse) (old new : Word) (m : Mishap) :
    use.reading old new (.cut m) = old ∨ use.admits old new (use.reading old new (.cut m)) = true := by
  dsimp only [StateUse.reading]
  split
  · exact .inr ‹_›
  · exact .inl rfl

/-- Programming clears bits and sets none (R106, R207): every bit a word has after an access that is not an erasure it
had before. -/
theorem Access.result_clears (a : Access) (e : Ending) {c : Cells Word} (hc : Memory.wf erased c = true)
    (ha : a ≠ .erase a.bank) (x : Nat) : bankRead (a.result e c) x &&& bankRead c x = bankRead (a.result e c) x := by
  cases a with
  | program b addr w =>
    simp only [Access.result, bankRead, cellRead_cellWrite hc]
    split
    · rename_i h; subst h; exact and_clears _ _
    · exact BitVec.and_self
  | state b addr w use =>
    simp only [Access.result, bankRead, cellRead_cellWrite hc]
    split
    · rename_i h; subst h; exact StateUse.reading_clears ..
    · exact BitVec.and_self
  | erase b => exact absurd rfl ha

/-- The memories of the reset state have their canonical form. -/
theorem reset_memory_wf :
    Memory.wf erased State.reset.rs.bankA = true ∧ Memory.wf erased State.reset.rs.bankB = true ∧
      ∀ t : Fin 8, Memory.wf identityEntry State.reset.cu.tables[t] = true := by decide

end Sys2Proof.Machine
end

