-- ==== Sys2Proof/Laws/Operands.lean ====
section
/-!
SUPPORT. Operand bytes read back: what each field reader answers on the bytes that spell a value in range.
-/

namespace Sys2Proof.Machine

-- One theorem after another: as many at once as the whole package holds would need a stack each.
set_option Elab.async false

theorem byteOf_toNat {n : Nat} (h : n < 256) : (byteOf n).toNat = n := by simp [byteOf]; omega

theorem fin?_val {n : Nat} (x : Fin n) (h : n ≤ 256) : fin? n (byteOf x.1).toNat = some x := by
  rw [byteOf_toNat (by omega)]; simp [fin?, x.2]

theorem finOperand_val {n : Nat} (x : Fin n) (h : n ≤ 256) : finOperand n [byteOf x.1] = some x := by
  simp [finOperand, fin?_val x h]

theorem num2_bytes (n : Nat) (h : n < 65536) : num2 (byteOf (n / 256)) (byteOf n) = n := by
  simp [num2, byteOf]; omega

theorem word2_bytes (w : Word) : word2 (byteOf (w.toNat / 256)) (byteOf w.toNat) = w := by
  rw [word2, num2_bytes _ w.isLt]; simp

theorem boolOf_yesNo (b : Bool) : boolOf (yesNo b).toNat = some b := by cases b <;> rfl
theorem lossOf_code (l : LossPolicy) : lossOf (byteOf (lossCode l)).toNat = some l := by cases l <;> rfl
theorem patternOf_code (k : Pattern) : patternOf (byteOf (patternCode k)).toNat = some k := by cases k <;> rfl
theorem forcedOf_code (k : Option Pattern) : forcedOf (byteOf (forcedCode k)).toNat = some k := by
  cases k with
  | none => rfl
  | some k => cases k <;> rfl
theorem noticeKind_code (k : NoticeKind) : NoticeKind.all[(byteOf k.idx.1).toNat]? = some k := by cases k <;> rfl
theorem keyOperand_code (k : RecKey) : keyOperand [byteOf (keyIndex (some k))] = some k := by
  cases k with
  | settings => rfl
  | context c => revert c; decide
  | table t => revert t; decide

theorem frameOperand_none : frameOperand [] = some none := rfl
theorem frameOperand_some (w : Word) : frameOperand (wordBytes w) = some (some w) := by
  simp only [wordBytes, bytes2, frameOperand, word2_bytes]

/-- The entries of a sequence are read from their bytes (R30). -/
theorem seqEntries_bytes (es : List SeqEntry) (rest : List Byte) (hc : ∀ e ∈ es, 1 ≤ e.count ∧ e.count ≤ 255) :
    seqEntries es.length (es.flatMap (fun e => [byteOf e.ctx.1, byteOf e.count]) ++ rest) = some (es, rest) := by
  induction es with
  | nil => rfl
  | cons e es ih =>
    have hce := hc e (by simp)
    have : (byteOf e.count).toNat = e.count := byteOf_toNat (by omega)
    have h0 : ¬byteOf e.count = 0#8 := by intro h; rw [h] at this; simp at this; omega
    simp [seqEntries, fin?_val e.ctx (by omega), ih (fun e he => hc e (by simp [he])), this, h0]

/-- The values of CURSOR-WRITE are read from their bytes (R170). -/
theorem values12_bytes (vs : List Nat) (h : ∀ v ∈ vs, v < 4096) : values12 (vs.flatMap bytes2) = some vs := by
  induction vs with
  | nil => rfl
  | cons v vs ih =>
    have hv := h v (by simp)
    have := ih (fun w hw => h w (by simp [hw]))
    simp only [List.flatMap_cons, bytes2, List.cons_append, List.nil_append, values12, num2_bytes v (by omega)] at this ⊢
    rw [if_pos hv, this]; rfl

/-- The bytes of a tile entry are read as it is (R1, R22). -/
theorem tileOperand_bytes (t : Tile) (h : t.x < 8192 ∧ t.y < 8192 ∧ 1 ≤ t.w ∧ t.w ≤ 256 ∧ 1 ≤ t.h ∧ t.h ≤ 256)
    (hb : t.bright < 256) : tileOperand (tileBytes t) = some t := by
  simp only [tileBytes, bytes2, List.cons_append, List.nil_append, tileOperand, fin?_val t.port (by omega),
    fin?_val t.pos (by omega), fin?_val t.table (by omega), boolOf_yesNo, num2_bytes t.x (by omega),
    num2_bytes t.y (by omega), num2_bytes t.w (by omega), num2_bytes t.h (by omega), byteOf_toNat hb]
  rw [if_pos h]

/-- Entries read one after another. -/
theorem cellReadList_eq {α : Type} (dflt : Nat → α) (m : Cells α) (a n : Nat) :
    cellReadList dflt m a n = (List.range n).map fun j => cellRead dflt m (a + j) := by
  induction n generalizing a with
  | zero => rfl
  | succ n ih =>
    rw [cellReadList, ih, List.range_succ_eq_map]
    simp [Nat.add_assoc, Nat.add_comm 1]

end Sys2Proof.Machine
end

