-- ==== Sys2Proof/Laws/Ops.lean ====
section
/-!
SUPPORT. The shared operations, one lemma for all that each can do: raising, forwarding, arriving, releasing, changing a
port, handing it a line, and the accesses to the banks.
-/

namespace Sys2Proof.Machine

-- One theorem after another: as many at once as the whole package holds would need a stack each.
set_option Elab.async false

/-! ## Forwarding and arriving -/

theorem State.forward_eq (bytes : List Byte) (s : State) :
    s.forward bytes = { s with out := if s.dn.up then s.out ++ [.forward bytes] else s.out } := by
  unfold State.forward; split <;> rfl

/-- An arrival outside NO-SIGNAL restarts the signal timer alone (R45). -/
theorem State.arrive_of_signal {s : State} (h : s.ft.lock ≠ .noSignal) :
    s.arrive = { s with ft := { s.ft with signal := some (s.now + 100000) } } := by
  have hp : s.ft.packet s.now = { s.ft with signal := some (s.now + 100000) } := by
    unfold Tracker.packet; rw [if_neg h]; rfl
  simp only [State.arrive, hp, State.noticeLock, if_true]

/-- An arrival in NO-SIGNAL also begins the acquisition and reports it (R60, R64). -/
theorem State.arrive_of_noSignal {s : State} (h : s.ft.lock = .noSignal) :
    s.arrive =
      ({ s with ft := { s.ft with
                          lock := .acquiring, regular := 0, acquisition := some (s.now + 1000000), holdover := none,
                          loss := none, signal := some (s.now + 100000) } } : State).raise
        (.lockChanged .noSignal .acquiring s.ft.lastNumber) := by
  have hp : s.ft.packet s.now =
      { s.ft with lock := .acquiring, regular := 0, acquisition := some (s.now + 1000000), holdover := none,
                  loss := none, signal := some (s.now + 100000) } := by
    unfold Tracker.packet; rw [if_pos h]; rfl
  simp only [State.arrive, hp, State.noticeLock, h]
  rw [if_neg (by decide)]

/-! ## Raising -/

/-- All that a raise can do (R181, R186). -/
theorem Notices.raise_cases (d : Detail) (n : Notices) :
    let sl := n.slots[d.kind.idx]
    let put (b : Pending) : Vector NoticeSlot 16 := upd n.slots d.kind.idx { sl with body := some b }
    (sl.body = none ∧ sl.cls = 3 ∧ n.raise d = n) ∨
    (sl.body = none ∧ sl.cls ≠ 3 ∧ n.raise d = ⟨put ⟨1, d, d, false, none⟩, n.list ++ [d.kind]⟩) ∨
    (∃ p, sl.body = some p ∧ p.sending = false ∧
      n.raise d = ⟨put { p with count := bump255 p.count, latest := d }, n.list⟩) ∨
    (∃ p, sl.body = some p ∧ p.sending = true ∧ p.carry = none ∧
      n.raise d = ⟨put { p with carry := some ⟨1, d, d⟩ }, n.list.filter (· != d.kind) ++ [d.kind]⟩) ∨
    (∃ p c, sl.body = some p ∧ p.sending = true ∧ p.carry = some c ∧
      n.raise d = ⟨put { p with carry := some ⟨bump255 c.count, c.first, d⟩ }, n.list⟩) := by
  dsimp only
  cases hb : n.slots[d.kind.idx].body with
  | none =>
    by_cases hc : n.slots[d.kind.idx].cls = 3
    · left; simp only [Notices.raise, hb, hc, if_true, and_self]
    · right; left; exact ⟨rfl, hc, by simp only [Notices.raise, hb, if_neg hc]⟩
  | some p =>
    right; right
    cases hs : p.sending with
    | false =>
      left; refine ⟨p, rfl, hs, ?_⟩
      simp only [Notices.raise, hb, hs]; rfl
    | true =>
      right
      cases hc : p.carry with
      | none => left; exact ⟨p, rfl, hs, hc, by simp only [Notices.raise, hb, hs, hc, if_true]⟩
      | some c => right; exact ⟨p, c, rfl, hs, hc, by simp only [Notices.raise, hb, hs, hc, if_true]⟩

/-! ## Releases -/

theorem MapStore.releaseEdit_of_owner (m : MapStore) (key : Byte) :
    (if m.ownsEdit key then m.releaseEdit else m) = m.withoutEditOf key := by
  unfold MapStore.ownsEdit MapStore.releaseEdit MapStore.withoutEditOf
  cases h : m.edit with
  | none => simp
  | some e =>
    by_cases hk : e.owner = key
    · simp only [hk, beq_self_eq_true, if_true]; cases e.prior <;> rfl
    · simp [hk]

theorem CorrectionUnit.releaseStaging_of_owner (m : CorrectionUnit) (key : Byte) :
    (if m.ownsStaging key then m.releaseStaging else m) = m.withoutStagingOf key := by
  unfold CorrectionUnit.ownsStaging CorrectionUnit.releaseStaging CorrectionUnit.withoutStagingOf
  cases m.staging <;> simp

/-! ## A port of the block -/

/-- A port whose conditions of R90 hold starts the transfer of its head. -/
theorem State.setPort_starts {i : Fin 8} {s : State} {q : Port} {l : PortLine} (h : q.starting = some l) :
    s.setPort i q =
      { s with ports := upd s.ports i { q with transferring := true, stallTimer := none },
               out := s.out ++ [.chain i l] } := by
  simp only [State.setPort, Port.settle, h]
  simp [Port.keepStall, Port.waiting]

/-- A port that starts nothing keeps its stall timer in step (R92). -/
theorem State.setPort_idle {i : Fin 8} {s : State} {q : Port} (h : q.starting = none) :
    s.setPort i q = { s with ports := upd s.ports i (q.keepStall s.now) } := by
  simp [State.setPort, Port.settle, h]

/-- The rows of trunk lines of one age. -/
def rowsOfAge (ls : List PortLine) (age : Age) : Nat :=
  ((ls.filter fun l => match l.source with | .trunk _ a => a == age | .policy | .pattern => false).map
    fun l => l.rows.length).sum

theorem rowsOfAge_cons (l : PortLine) (ls : List PortLine) (age : Age) :
    rowsOfAge (l :: ls) age =
      (match l.source with | .trunk _ a => if a = age then l.rows.length else 0 | .policy | .pattern => 0) +
        rowsOfAge ls age := by
  rcases l with ⟨_ | _ | _, _, _⟩
  · rename_i a; by_cases h : a = age <;> simp [rowsOfAge, h]
  · simp [rowsOfAge]
  · simp [rowsOfAge]

/-- Lines counted dropped add their rows to the records of their ages and change nothing else (R94). -/
theorem Port.foldl_countDropped (ls : List PortLine) (p : Port) :
    ls.foldl Port.countDropped p =
      { p with
          current := p.current.map fun t => { t with dropped := t.dropped + rowsOfAge ls .current },
          last := p.last.map fun t => { t with dropped := t.dropped + rowsOfAge ls .last } } := by
  induction ls generalizing p with
  | nil =>
    rcases p with ⟨_, _, _, _, _, _, _, _, c, l, _⟩
    cases c <;> cases l <;> simp [rowsOfAge]
  | cons x xs ih =>
    rw [List.foldl_cons, ih]
    rcases p with ⟨_, _, _, _, _, _, _, _, c, l, _⟩
    rcases x with ⟨_ | _ | _, _, _⟩
    · rename_i a
      cases a <;> cases c <;> cases l <;>
        simp [Port.countDropped, Port.tally, rowsOfAge_cons, Nat.add_assoc]
    · cases c <;> cases l <;> simp [Port.countDropped, rowsOfAge_cons]
    · cases c <;> cases l <;> simp [Port.countDropped, rowsOfAge_cons]

/-! ## The banks -/

/-- Accesses change the banks and nothing else of the Record Store. -/
theorem RecordStore.perform_eq (m : Option Mishap) (i : Nat) (as : List Access) (r : RecordStore) :
    ∃ a b, (RecordStore.perform m i as r).1 = { r with bankA := a, bankB := b } := by
  induction as generalizing i r with
  | nil => exact ⟨_, _, rfl⟩
  | cons x xs ih =>
    have hs : ∀ c, ∃ a b, r.setBank x.bank c = { r with bankA := a, bankB := b } := by
      intro c; cases h : x.bank <;> exact ⟨_, _, rfl⟩
    unfold RecordStore.perform
    obtain ⟨a, b, h⟩ := hs (x.result (Ending.ofFault m i) (r.bank x.bank))
    dsimp only
    split
    · exact ⟨a, b, h⟩
    · obtain ⟨a', b', h'⟩ := ih (i + 1) (r.setBank x.bank (x.result (Ending.ofFault m i) (r.bank x.bank)))
      exact ⟨a', b', by rw [h', h]⟩

/-- Accesses keep the canonical form of both banks. -/
theorem RecordStore.perform_wf (m : Option Mishap) (i : Nat) (as : List Access) {r : RecordStore}
    (h : Memory.wf erased r.bankA = true ∧ Memory.wf erased r.bankB = true) :
    Memory.wf erased (RecordStore.perform m i as r).1.bankA = true ∧
      Memory.wf erased (RecordStore.perform m i as r).1.bankB = true := by
  induction as generalizing i r with
  | nil => exact h
  | cons x xs ih =>
    have hs : ∀ m', Memory.wf erased (r.setBank x.bank (x.result m' (r.bank x.bank))).bankA = true ∧
        Memory.wf erased (r.setBank x.bank (x.result m' (r.bank x.bank))).bankB = true := by
      intro m'
      cases hb : x.bank
      · exact ⟨Access.wf_result x m' h.1, h.2⟩
      · exact ⟨h.1, Access.wf_result x m' h.2⟩
    unfold RecordStore.perform
    dsimp only
    split
    · exact hs _
    · exact ih (i + 1) (hs _)

/-- The same of accesses that a reset cuts off. -/
theorem RecordStore.cutOff_wf (cut : Mishap) (i : Nat) (as : List Access) {r : RecordStore}
    (h : Memory.wf erased r.bankA = true ∧ Memory.wf erased r.bankB = true) :
    Memory.wf erased (RecordStore.cutOff cut i as r).bankA = true ∧
      Memory.wf erased (RecordStore.cutOff cut i as r).bankB = true := by
  induction as generalizing i r with
  | nil => exact h
  | cons x xs ih =>
    have hs : ∀ m', Memory.wf erased (r.setBank x.bank (x.result m' (r.bank x.bank))).bankA = true ∧
        Memory.wf erased (r.setBank x.bank (x.result m' (r.bank x.bank))).bankB = true := by
      intro m'
      cases hb : x.bank
      · exact ⟨Access.wf_result x m' h.1, h.2⟩
      · exact ⟨h.1, Access.wf_result x m' h.2⟩
    unfold RecordStore.cutOff
    split
    · exact ih (i + 1) (hs _)
    · exact hs _

/-- Accesses cut off change the banks and nothing else of the Record Store. -/
theorem RecordStore.cutOff_eq (cut : Mishap) (i : Nat) (as : List Access) (r : RecordStore) :
    ∃ a b, RecordStore.cutOff cut i as r = { r with bankA := a, bankB := b } := by
  induction as generalizing i r with
  | nil => exact ⟨_, _, rfl⟩
  | cons x xs ih =>
    have hs : ∀ c, ∃ a b, r.setBank x.bank c = { r with bankA := a, bankB := b } := by
      intro c; cases h : x.bank <;> exact ⟨_, _, rfl⟩
    unfold RecordStore.cutOff
    split
    · obtain ⟨a, b, h⟩ := hs (x.result .made (r.bank x.bank))
      obtain ⟨a', b', h'⟩ := ih (i + 1) (r.setBank x.bank (x.result .made (r.bank x.bank)))
      exact ⟨a', b', by rw [h', h]⟩
    · exact hs _

/-- A bank that no access names stays as it was. -/
theorem RecordStore.cutOff_bank (cut : Mishap) (i : Nat) (as : List Access) (r : RecordStore) {b : BankId}
    (h : ∀ a ∈ as, a.bank ≠ b) : (RecordStore.cutOff cut i as r).bank b = r.bank b := by
  induction as generalizing i r with
  | nil => rfl
  | cons x xs ih =>
    have hb : ∀ c, (r.setBank x.bank c).bank b = r.bank b := by
      intro c
      have := h x (List.mem_cons_self ..)
      revert this
      cases x.bank <;> cases b <;> simp [RecordStore.setBank, RecordStore.bank]
    unfold RecordStore.cutOff
    split
    · rw [ih _ _ fun a ha => h a (List.mem_cons_of_mem _ ha), hb]
    · exact hb _

/-- A cut falls in the first accesses or, all of those made, in the rest. -/
theorem RecordStore.cutOff_append (cut : Mishap) {i : Nat} (hi : i ≤ cut.step) (as bs : List Access) (r : RecordStore) :
    RecordStore.cutOff cut i (as ++ bs) r =
      if cut.step < i + as.length then RecordStore.cutOff cut i as r
      else RecordStore.cutOff cut (i + as.length) bs (RecordStore.cutOff cut i as r) := by
  induction as generalizing i r with
  | nil => simp [Nat.not_lt.mpr hi, RecordStore.cutOff]
  | cons x xs ih =>
    by_cases hc : i < cut.step
    · simp only [List.cons_append, RecordStore.cutOff, if_pos hc, ih (i := i + 1) hc, List.length_cons]
      rw [show i + (xs.length + 1) = i + 1 + xs.length by omega]
    · simp only [List.cons_append, RecordStore.cutOff, if_neg hc, List.length_cons]
      rw [if_pos (by omega)]

end Sys2Proof.Machine
end

