-- ==== Sys2Proof/Laws/PerInstr.lean ====
section
/-!
SUPPORT. The per-command family `Request`: a command that carries a request is the request kind's own command, so that
a CONTROL packet is classified back to it.
-/

namespace Sys2Proof.Laws.Request

-- One theorem after another: as many at once as the whole package holds would need a stack each.
set_option Elab.async false

/-- A command read as a request of a kind is that kind's command. -/
def Statement (i : Instr) : Prop := ∀ k c, i.request = some (k, c) → ∃ dt, i = requestInstr dt c k

theorem powerOn (dt : Nat) (cut : Mishap) : Statement (.powerOn dt cut) :=
  fun _ _ h => by cases h
theorem rstnLow (dt : Nat) (cut : Mishap) : Statement (.rstnLow dt cut) :=
  fun _ _ h => by cases h
theorem releaseOfReset (dt : Nat) : Statement (.releaseOfReset dt) :=
  fun _ _ h => by cases h
theorem startupBankChoice (dt : Nat) (fault : Option Mishap) : Statement (.startupBankChoice dt fault) :=
  fun _ _ h => by cases h
theorem startupScan (dt : Nat) : Statement (.startupScan dt) :=
  fun _ _ h => by cases h
theorem startupRecordLoad (dt : Nat) : Statement (.startupRecordLoad dt) :=
  fun _ _ h => by cases h
theorem startupTidy (dt : Nat) (faults : List (Nat × Word)) : Statement (.startupTidy dt faults) :=
  fun _ _ h => by cases h
theorem startupLoadCompletion (dt : Nat) : Statement (.startupLoadCompletion dt) :=
  fun _ _ h => by cases h
theorem forwardPacketDropped (dt : Nat) (bytes : List Byte) : Statement (.forwardPacketDropped dt bytes) :=
  fun _ _ h => by cases h
theorem frameStart (dt : Nat) (frame width height : Word) : Statement (.frameStart dt frame width height) :=
  fun _ _ h => by cases h
theorem line (dt : Nat) (frame y x0 : Word) (pixels : List PixelWord) : Statement (.line dt frame y x0 pixels) :=
  fun _ _ h => by cases h
theorem frameEnd (dt : Nat) (frame runs : Word) : Statement (.frameEnd dt frame runs) :=
  fun _ _ h => by cases h
theorem idle (dt : Nat) : Statement (.idle dt) :=
  fun _ _ h => by cases h
theorem forwardUnknownKind (dt : Nat) (bytes : List Byte) : Statement (.forwardUnknownKind dt bytes) :=
  fun _ _ h => by cases h
theorem controlNotAddressed (dt : Nat) (kind : Byte) (c : Ctl) : Statement (.controlNotAddressed dt kind c) :=
  fun _ _ h => by cases h
theorem unknownRequest (dt : Nat) (kind : Byte) (c : Ctl) : Statement (.unknownRequest dt kind c) :=
  fun _ _ h => by cases h
theorem openSession (dt : Nat) (c : Ctl) : Statement (.openSession dt c) := by
  intro k c' h; obtain ⟨rfl, rfl⟩ := by simpa [Instr.request] using h
  exact ⟨dt, rfl⟩
theorem closeSession (dt : Nat) (c : Ctl) : Statement (.closeSession dt c) := by
  intro k c' h; obtain ⟨rfl, rfl⟩ := by simpa [Instr.request] using h
  exact ⟨dt, rfl⟩
theorem keep (dt : Nat) (c : Ctl) : Statement (.keep dt c) := by
  intro k c' h; obtain ⟨rfl, rfl⟩ := by simpa [Instr.request] using h
  exact ⟨dt, rfl⟩
theorem readStatus (dt : Nat) (c : Ctl) : Statement (.readStatus dt c) := by
  intro k c' h; obtain ⟨rfl, rfl⟩ := by simpa [Instr.request] using h
  exact ⟨dt, rfl⟩
theorem cursorSet (dt : Nat) (c : Ctl) : Statement (.cursorSet dt c) := by
  intro k c' h; obtain ⟨rfl, rfl⟩ := by simpa [Instr.request] using h
  exact ⟨dt, rfl⟩
theorem cursorWrite (dt : Nat) (c : Ctl) : Statement (.cursorWrite dt c) := by
  intro k c' h; obtain ⟨rfl, rfl⟩ := by simpa [Instr.request] using h
  exact ⟨dt, rfl⟩
theorem cursorRead (dt : Nat) (c : Ctl) : Statement (.cursorRead dt c) := by
  intro k c' h; obtain ⟨rfl, rfl⟩ := by simpa [Instr.request] using h
  exact ⟨dt, rfl⟩
theorem readTile (dt : Nat) (c : Ctl) : Statement (.readTile dt c) := by
  intro k c' h; obtain ⟨rfl, rfl⟩ := by simpa [Instr.request] using h
  exact ⟨dt, rfl⟩
theorem openEdit (dt : Nat) (c : Ctl) : Statement (.openEdit dt c) := by
  intro k c' h; obtain ⟨rfl, rfl⟩ := by simpa [Instr.request] using h
  exact ⟨dt, rfl⟩
theorem setTile (dt : Nat) (c : Ctl) : Statement (.setTile dt c) := by
  intro k c' h; obtain ⟨rfl, rfl⟩ := by simpa [Instr.request] using h
  exact ⟨dt, rfl⟩
theorem clearTile (dt : Nat) (c : Ctl) : Statement (.clearTile dt c) := by
  intro k c' h; obtain ⟨rfl, rfl⟩ := by simpa [Instr.request] using h
  exact ⟨dt, rfl⟩
theorem setFill (dt : Nat) (c : Ctl) : Statement (.setFill dt c) := by
  intro k c' h; obtain ⟨rfl, rfl⟩ := by simpa [Instr.request] using h
  exact ⟨dt, rfl⟩
theorem checkEdit (dt : Nat) (c : Ctl) : Statement (.checkEdit dt c) := by
  intro k c' h; obtain ⟨rfl, rfl⟩ := by simpa [Instr.request] using h
  exact ⟨dt, rfl⟩
theorem closeEdit (dt : Nat) (c : Ctl) : Statement (.closeEdit dt c) := by
  intro k c' h; obtain ⟨rfl, rfl⟩ := by simpa [Instr.request] using h
  exact ⟨dt, rfl⟩
theorem abandonEdit (dt : Nat) (c : Ctl) : Statement (.abandonEdit dt c) := by
  intro k c' h; obtain ⟨rfl, rfl⟩ := by simpa [Instr.request] using h
  exact ⟨dt, rfl⟩
theorem selectContext (dt : Nat) (c : Ctl) : Statement (.selectContext dt c) := by
  intro k c' h; obtain ⟨rfl, rfl⟩ := by simpa [Instr.request] using h
  exact ⟨dt, rfl⟩
theorem selectSequence (dt : Nat) (c : Ctl) : Statement (.selectSequence dt c) := by
  intro k c' h; obtain ⟨rfl, rfl⟩ := by simpa [Instr.request] using h
  exact ⟨dt, rfl⟩
theorem cancelSelect (dt : Nat) (c : Ctl) : Statement (.cancelSelect dt c) := by
  intro k c' h; obtain ⟨rfl, rfl⟩ := by simpa [Instr.request] using h
  exact ⟨dt, rfl⟩
theorem hold (dt : Nat) (c : Ctl) : Statement (.hold dt c) := by
  intro k c' h; obtain ⟨rfl, rfl⟩ := by simpa [Instr.request] using h
  exact ⟨dt, rfl⟩
theorem release (dt : Nat) (c : Ctl) : Statement (.release dt c) := by
  intro k c' h; obtain ⟨rfl, rfl⟩ := by simpa [Instr.request] using h
  exact ⟨dt, rfl⟩
theorem beginTable (dt : Nat) (c : Ctl) : Statement (.beginTable dt c) := by
  intro k c' h; obtain ⟨rfl, rfl⟩ := by simpa [Instr.request] using h
  exact ⟨dt, rfl⟩
theorem endTable (dt : Nat) (c : Ctl) : Statement (.endTable dt c) := by
  intro k c' h; obtain ⟨rfl, rfl⟩ := by simpa [Instr.request] using h
  exact ⟨dt, rfl⟩
theorem abandonTable (dt : Nat) (c : Ctl) : Statement (.abandonTable dt c) := by
  intro k c' h; obtain ⟨rfl, rfl⟩ := by simpa [Instr.request] using h
  exact ⟨dt, rfl⟩
theorem setPort (dt : Nat) (c : Ctl) : Statement (.setPort dt c) := by
  intro k c' h; obtain ⟨rfl, rfl⟩ := by simpa [Instr.request] using h
  exact ⟨dt, rfl⟩
theorem forcePattern (dt : Nat) (c : Ctl) : Statement (.forcePattern dt c) := by
  intro k c' h; obtain ⟨rfl, rfl⟩ := by simpa [Instr.request] using h
  exact ⟨dt, rfl⟩
theorem setCadence (dt : Nat) (c : Ctl) : Statement (.setCadence dt c) := by
  intro k c' h; obtain ⟨rfl, rfl⟩ := by simpa [Instr.request] using h
  exact ⟨dt, rfl⟩
theorem readPort (dt : Nat) (c : Ctl) : Statement (.readPort dt c) := by
  intro k c' h; obtain ⟨rfl, rfl⟩ := by simpa [Instr.request] using h
  exact ⟨dt, rfl⟩
theorem saveContext (dt : Nat) (c : Ctl) : Statement (.saveContext dt c) := by
  intro k c' h; obtain ⟨rfl, rfl⟩ := by simpa [Instr.request] using h
  exact ⟨dt, rfl⟩
theorem saveTable (dt : Nat) (c : Ctl) : Statement (.saveTable dt c) := by
  intro k c' h; obtain ⟨rfl, rfl⟩ := by simpa [Instr.request] using h
  exact ⟨dt, rfl⟩
theorem saveSettings (dt : Nat) (c : Ctl) : Statement (.saveSettings dt c) := by
  intro k c' h; obtain ⟨rfl, rfl⟩ := by simpa [Instr.request] using h
  exact ⟨dt, rfl⟩
theorem restoreContext (dt : Nat) (c : Ctl) : Statement (.restoreContext dt c) := by
  intro k c' h; obtain ⟨rfl, rfl⟩ := by simpa [Instr.request] using h
  exact ⟨dt, rfl⟩
theorem restoreTable (dt : Nat) (c : Ctl) : Statement (.restoreTable dt c) := by
  intro k c' h; obtain ⟨rfl, rfl⟩ := by simpa [Instr.request] using h
  exact ⟨dt, rfl⟩
theorem deleteRecord (dt : Nat) (c : Ctl) : Statement (.deleteRecord dt c) := by
  intro k c' h; obtain ⟨rfl, rfl⟩ := by simpa [Instr.request] using h
  exact ⟨dt, rfl⟩
theorem compact (dt : Nat) (c : Ctl) : Statement (.compact dt c) := by
  intro k c' h; obtain ⟨rfl, rfl⟩ := by simpa [Instr.request] using h
  exact ⟨dt, rfl⟩
theorem eraseStore (dt : Nat) (c : Ctl) : Statement (.eraseStore dt c) := by
  intro k c' h; obtain ⟨rfl, rfl⟩ := by simpa [Instr.request] using h
  exact ⟨dt, rfl⟩
theorem readStoreStatus (dt : Nat) (c : Ctl) : Statement (.readStoreStatus dt c) := by
  intro k c' h; obtain ⟨rfl, rfl⟩ := by simpa [Instr.request] using h
  exact ⟨dt, rfl⟩
theorem setNoticeClass (dt : Nat) (c : Ctl) : Statement (.setNoticeClass dt c) := by
  intro k c' h; obtain ⟨rfl, rfl⟩ := by simpa [Instr.request] using h
  exact ⟨dt, rfl⟩
theorem enumerate (dt : Nat) (c : Ctl) : Statement (.enumerate dt c) := by
  intro k c' h; obtain ⟨rfl, rfl⟩ := by simpa [Instr.request] using h
  exact ⟨dt, rfl⟩
theorem reset (dt : Nat) (c : Ctl) : Statement (.reset dt c) := by
  intro k c' h; obtain ⟨rfl, rfl⟩ := by simpa [Instr.request] using h
  exact ⟨dt, rfl⟩
theorem saveCompletion (dt : Nat) (fault : Option Mishap) : Statement (.saveCompletion dt fault) :=
  fun _ _ h => by cases h
theorem restoreContextCompletion (dt : Nat) : Statement (.restoreContextCompletion dt) :=
  fun _ _ h => by cases h
theorem restoreTableCompletion (dt : Nat) : Statement (.restoreTableCompletion dt) :=
  fun _ _ h => by cases h
theorem deleteCompletion (dt : Nat) (fault : Option Mishap) : Statement (.deleteCompletion dt fault) :=
  fun _ _ h => by cases h
theorem compactCompletion (dt : Nat) (fault : Option Mishap) : Statement (.compactCompletion dt fault) :=
  fun _ _ h => by cases h
theorem eraseStoreCompletion (dt : Nat) (fault : Option Mishap) : Statement (.eraseStoreCompletion dt fault) :=
  fun _ _ h => by cases h
theorem leaseExpiry (dt : Nat) (slot : Fin 4) : Statement (.leaseExpiry dt slot) :=
  fun _ _ h => by cases h
theorem signalTimerExpiry (dt : Nat) : Statement (.signalTimerExpiry dt) :=
  fun _ _ h => by cases h
theorem lineGapTimerExpiry (dt : Nat) : Statement (.lineGapTimerExpiry dt) :=
  fun _ _ h => by cases h
theorem acquisitionTimerExpiry (dt : Nat) : Statement (.acquisitionTimerExpiry dt) :=
  fun _ _ h => by cases h
theorem holdoverDeadlineExpiry (dt : Nat) : Statement (.holdoverDeadlineExpiry dt) :=
  fun _ _ h => by cases h
theorem lossTimerExpiry (dt : Nat) : Statement (.lossTimerExpiry dt) :=
  fun _ _ h => by cases h
theorem readyRises (dt : Nat) (port : Fin 8) : Statement (.readyRises dt port) :=
  fun _ _ h => by cases h
theorem readyFalls (dt : Nat) (port : Fin 8) : Statement (.readyFalls dt port) :=
  fun _ _ h => by cases h
theorem transferCompletion (dt : Nat) (port : Fin 8) : Statement (.transferCompletion dt port) :=
  fun _ _ h => by cases h
theorem stallTimerExpiry (dt : Nat) (port : Fin 8) : Statement (.stallTimerExpiry dt port) :=
  fun _ _ h => by cases h
theorem cadenceExpiry (dt : Nat) : Statement (.cadenceExpiry dt) :=
  fun _ _ h => by cases h
theorem generatedLinePlaced (dt : Nat) (port : Fin 8) : Statement (.generatedLinePlaced dt port) :=
  fun _ _ h => by cases h
theorem returnReceptionBegins (dt : Nat) : Statement (.returnReceptionBegins dt) :=
  fun _ _ h => by cases h
theorem returnPacket (dt : Nat) (bytes : List Byte) : Statement (.returnPacket dt bytes) :=
  fun _ _ h => by cases h
theorem returnIdle (dt : Nat) : Statement (.returnIdle dt) :=
  fun _ _ h => by cases h
theorem returnPacketDropped (dt : Nat) (bytes : List Byte) : Statement (.returnPacketDropped dt bytes) :=
  fun _ _ h => by cases h
theorem linkTimerExpiry (dt : Nat) : Statement (.linkTimerExpiry dt) :=
  fun _ _ h => by cases h
theorem holdInputRises (dt : Nat) : Statement (.holdInputRises dt) :=
  fun _ _ h => by cases h
theorem holdInputFalls (dt : Nat) : Statement (.holdInputFalls dt) :=
  fun _ _ h => by cases h
theorem transmissionBegins (dt : Nat) : Statement (.transmissionBegins dt) :=
  fun _ _ h => by cases h
theorem idleIntervalExpiry (dt : Nat) : Statement (.idleIntervalExpiry dt) :=
  fun _ _ h => by cases h
theorem transmissionCompletion (dt : Nat) (cut : Mishap) : Statement (.transmissionCompletion dt cut) :=
  fun _ _ h => by cases h

end Sys2Proof.Laws.Request
end

