-- ==== Sys2Proof/Tests/Slice0.lean ====
section
/-!
SUPPORT. Tests: ill-formed commands are refused, packets decode, one step on small states with results taken from the
spec's rules and examples, and for each statement a state and operands that meet the hypotheses of each of its clauses.
-/

namespace Sys2Proof.Tests

open Sys2Proof.Machine

-- One theorem after another: as many at once as there are tests would need a stack each.
set_option Elab.async false

/-! ## Helpers -/

/-- The state a command leads to. -/
def after (i : Instr) (s : State) : State :=
  match exec i s with
  | .next t => t
  | _ => s

/-- No mishap. -/
def well : Mishap := ⟨0, 0, []⟩

/-- The notices pending, in the pending list's order. -/
def pendingKinds (s : State) : List NoticeKind := s.ns.list

/-- The response in a slot: status and results. -/
def answer (s : State) (i : Fin 8) : Option (Status × List Byte) :=
  match s.rq.slots[i] with
  | .filled r => some (r.status, r.results)
  | _ => none

/-- A session of key 9, last executed 40. -/
def sess : Session := ⟨9, 7, 40, none, .ready 5000000 ⟨3, 40, .ok, []⟩⟩

/-- A cabinet at address 5, RUNNING, with one open session, a READY context C1 and the link UP. -/
def desk : State :=
  { State.reset with
      phase := .running, address := 5, sessions := #v[some sess, none, none, none],
      rs := { State.reset.rs with load := none },
      dn := { State.reset.dn with up := true, linkTimer := some 2000 },
      ms := { State.reset.ms with
                contexts := upd State.reset.ms.contexts 1 ⟨.ready, emptyTable, ⟨1, 2, 3⟩⟩, selection := .context 1 } }

/-- The next request of the session. -/
def ask (ops : List Byte) : Ctl := ⟨5, 9, 41, ops⟩
/-- A sessionless request. -/
def anon (ops : List Byte) : Ctl := ⟨5, 0, 0, ops⟩
/-- A broadcast. -/
def toAll (ops : List Byte) : Ctl := ⟨255, 0, 0, ops⟩

/-- A tile of 4 by 2 pixels at the origin, on port 2, mirrored horizontally, full brightness. -/
def tile : Tile := ⟨2, 0, 0, 0, 4, 2, true, false, 0, 255⟩

/-- The edit buffer owned by the session for C0. -/
def buffer : EditBuffer := ⟨9, 0, .blank, emptyTable, Rgb.black, none⟩

/-- The cabinet with the edit buffer taken for C0. -/
def editing : State :=
  { desk with ms := { desk.ms with edit := some buffer,
                                   contexts := upd desk.ms.contexts 0 ⟨.opened, emptyTable, Rgb.black⟩ } }

/-- The cabinet with the staging area owned by the session for T3. -/
def stagingDesk : State := { desk with cu := { desk.cu with staging := .owned 9 3 [] } }

/-- The cabinet with a frame of 8 by 4 open on a map of one tile. -/
def showing : State :=
  { desk with
      ft := { desk.ft with frame := some ⟨200, 8, 4⟩, lock := .locked, reference := some 16666, signal := some 100000,
                           holdover := some 18749, lineGap := some 25000, lastOpen := some 0, lastNumber := 200 },
      te := some ⟨⟨200, 8, 4, [(0, tile)], ⟨7, 7, 7⟩, Vector.replicate 8 true⟩, 0, []⟩,
      ports := desk.ports.map fun p => { p with current := some ⟨200, 0, 0, 0⟩ } }

/-- A trunk line of frame 200 with one row. -/
def lineOf (y : Nat) (age : Age) : PortLine := ⟨.trunk 200 age, y, [⟨0, 0, y, .filled, [⟨7, 7, 7⟩]⟩]⟩

/-- A port changed. -/
def withPort (i : Fin 8) (f : Port → Port) (s : State) : State := { s with ports := upd s.ports i (f s.ports[i]) }

/-- The session waiting for an operation, which is in flight. -/
def flying (kind : ReqKind) (k : Option RecKey) (addr : Nat) (body : List Word) : State :=
  { desk with
      sessions := #v[some { sess with last := 41, state := .waiting 4000000 kind 41 0 }, none, none, none],
      rq := desk.rq.reserve 0 9 41 (reqCode kind),
      rs := { desk.rs with op := some ⟨kind, k, 9, 0, true, addr, body⟩ } }

/-! ## Ill-formed commands -/

theorem test_wf_operands_too_long : (Instr.keep 0 ⟨5, 9, 41, List.replicate 61 0⟩).wf = false := by decide
theorem test_wf_line_too_long : (Instr.line 0 1 0 0 (List.replicate 1021 0)).wf = false := by decide +kernel
theorem test_wf_dropped_is_broken : (Instr.forwardPacketDropped 0 idlePacket).wf = false := by decide +kernel
theorem test_wf_return_dropped_is_broken : (Instr.returnPacketDropped 0 returnIdlePacket).wf = false := by
  decide +kernel
theorem test_wf_unknown_kind_is_unknown : (Instr.forwardUnknownKind 0 idlePacket).wf = false := by decide +kernel
theorem test_wf_unknown_kind_is_intact : (Instr.forwardUnknownKind 0 [5, 0, 5, 0, 0]).wf = false := by decide +kernel
theorem test_wf_return_packet_is_intact : (Instr.returnPacket 0 [17, 0, 5, 0, 0]).wf = false := by decide +kernel
theorem test_wf_return_packet_is_no_idle : (Instr.returnPacket 0 returnIdlePacket).wf = false := by decide +kernel
theorem test_wf_unknown_request_is_unknown : (Instr.unknownRequest 0 3 (ask [])).wf = false := by decide
theorem test_wf_mishap_in_bank : (Instr.saveCompletion 0 (some ⟨0, 0, [(32768, 0)]⟩)).wf = false := by decide
theorem test_wf_cut_in_bank : (Instr.powerOn 0 ⟨0, 0, [(32768, 0)]⟩).wf = false := by decide
theorem test_wf_tidy_in_bank : (Instr.startupTidy 0 [(32768, 0)]).wf = false := by decide

/-! ## Packets (chapter 12) -/

/-- The check value of the CRC that R203 describes, over the characters 1 to 9. -/
theorem test_crc_check_value : crc16 [0x31, 0x32, 0x33, 0x34, 0x35, 0x36, 0x37, 0x38, 0x39] = 0x29B1 := by
  decide +kernel

/-- The example of section 12.6: SAVE-CONTEXT(C2), session 6, sequence 41, to address 3. -/
theorem test_decode_saveContext :
    decodeForward 7 3 [0x04, 0x00, 0x0B, 0x03, 0x06, 0x29, 0x1C, 0x01, 0x02, 0x2D, 0x9F] =
      .saveContext 7 ⟨3, 6, 41, [2]⟩ := by decide +kernel

/-- The same packet at another cabinet, with its operand length made 2, and with its last byte changed. -/
theorem test_decode_elsewhere_and_broken :
    decodeForward 7 4 [0x04, 0x00, 0x0B, 0x03, 0x06, 0x29, 0x1C, 0x01, 0x02, 0x2D, 0x9F] =
      .controlNotAddressed 7 0x1C ⟨3, 6, 41, [2]⟩ ∧
    dropReason .forward ((packet 4 [3, 6, 41, 28, 1, 2]).set 7 2) = some .checkWord ∧
    dropReason .forward (packet 4 [3, 6, 41, 28, 2, 2]) = some .length ∧
    decodeForward 7 3 (packet 4 [3, 6, 41, 28, 2, 2, 0]) = .saveContext 7 ⟨3, 6, 41, [2, 0]⟩ := by decide +kernel

/-- Picture packets written out by R203: FRAME-START of frame 258, 16 by 4; LINE of one pixel; FRAME-END with 3 runs. -/
theorem test_decode_picture :
    decodeForward 0 0 (packet 1 [1, 2, 0, 16, 0, 4]) = .frameStart 0 258 16 4 ∧
    decodeForward 0 0 (packet 2 [1, 2, 0, 3, 0, 5, 0, 1, 0x3F, 0xF0, 0x00, 0x01]) = .line 0 258 3 5 [0x3FF00001] ∧
    decodeForward 0 0 (packet 3 [1, 2, 0, 3]) = .frameEnd 0 258 3 ∧
    decodeForward 0 0 (packet 0 []) = .idle 0 := by decide +kernel

theorem test_decode_broadcast_and_enumerate :
    decodeForward 0 9 (packet 4 [255, 0, 1, 19, 0]) = .hold 0 ⟨255, 0, 1, []⟩ ∧
    decodeForward 0 9 (packet 4 [255, 0, 1, 3, 0]) = .controlNotAddressed 0 3 ⟨255, 0, 1, []⟩ ∧
    decodeForward 0 9 (packet 4 [0, 0, 1, 38, 2, 1, 0]) = .enumerate 0 ⟨0, 0, 1, [1, 0]⟩ ∧
    decodeForward 0 9 (packet 4 [9, 0, 1, 40, 0]) = .unknownRequest 0 40 ⟨9, 0, 1, []⟩ ∧
    decodeForward 0 9 (packet 4 [9, 0, 1, 39, 1, 0]) = .reset 0 ⟨9, 0, 1, [0]⟩ := by decide +kernel

theorem test_table_words_spell_nothing : decodeTableWord 8 3 = none := rfl

/-! ## Sessions and requests (chapter 8) -/

/-- R158: OPEN-SESSION(20, 9) takes the lowest FREE slot, 1, and answers key, lease code and slot. -/
theorem test_openSession : answer (after (.openSession 0 ⟨5, 20, 3, [20, 9]⟩) desk) 0 = some (.ok, [20, 9, 1]) := by
  decide +kernel
/-- R158: a key already open. -/
theorem test_openSession_inUse : answer (after (.openSession 0 ⟨5, 9, 41, [9, 9]⟩) desk) 0 = some (.inUse, []) := by
  decide +kernel
/-- R162, R163: lease code 7 is 1,280 ms. -/
theorem test_keep : answer (after (.keep 0 (ask [])) desk) 0 = some (.ok, [7, 0, 5, 0]) := by decide +kernel
/-- R159, R177: a number sent again under another kind gets the cached status and results under the kind received. -/
theorem test_resend_kind : (after (.hold 0 ⟨5, 9, 40, []⟩) desk).rq.slots[0]'(by decide) =
    .filled ⟨5, 9, 40, 19, .ok, []⟩ := by decide +kernel
theorem test_closeSession : (after (.closeSession 0 (ask [])) editing).sessions[0]'(by decide) = none ∧
    (after (.closeSession 0 (ask [])) editing).ms.edit = none := by decide +kernel
theorem test_leaseExpiry :
    pendingKinds (after (.leaseExpiry 6000000 0) editing) = [.editAbandoned, .sessionExpired] := by decide +kernel
/-- R174: DEVICE of a RUNNING cabinet 5: seven free slots and one reserved, no staging, store IDLE, no notice. -/
theorem test_readStatus : answer (after (.readStatus 0 (ask [0])) showing) 0 = some (.ok, [1, 5, 7, 1, 0, 0, 0, 0, 0]) := by
  decide +kernel
/-- R150, R140, R204: part LINK of a link that is UP (0), nothing buffered or sent, turn LOCAL. -/
theorem test_readStatus_link : answer (after (.readStatus 0 (ask [4])) desk) 0 = some (.ok, [0, 0, 0, 0, 0, 0]) := by
  decide +kernel
theorem test_unknownRequest : answer (after (.unknownRequest 0 77 (ask [])) desk) 0 = some (.unknownRequest, []) := by
  decide +kernel
theorem test_cursorSet : answer (after (.cursorSet 0 (ask [3, 2, 3, 255])) desk) 0 = some (.ok, [3, 0x83, 0xFF]) := by
  decide +kernel

/-! ## Editing and selecting (chapter 2) -/

theorem test_openEdit_copy : (after (.openEdit 0 (ask [0, 0])) desk).ms.edit = some buffer := by decide +kernel
theorem test_openEdit_inUse : answer (after (.openEdit 0 (ask [1, 0])) desk) 0 = some (.inUse, []) := by decide +kernel
theorem test_setTile_range : answer (after (.setTile 0 (ask [0, 2, 0, 0, 0, 0, 0, 1, 1, 0, 2, 1, 0, 0, 255])) editing) 0 =
    some (.badOperand, []) := by decide +kernel
/-- R16, R18: owner 9, target C0, prior BLANK, no result, no used slot, black, slot 31 unused. -/
theorem test_readTile_edit : answer (after (.readTile 0 (ask [4, 31])) editing) 0 =
    some (.ok, [9, 0, 0, 0, 0, 0, 0, 0, 0, 0, 0, 0]) := by decide +kernel
/-- The six words of an image's entry in a slot, all fields 0 but w = h = 1. -/
def entryOf (slot : Word) : List Word := [slot, 0, 0, 0, 0, 0]
/-- R15: used count 40, 244 words, slot 5 repeated: slot 5; the same with every slot number out of range: 0. -/
theorem test_imageCheck :
    imageCheck ([0, 0, 0, 40] ++ (List.replicate 38 (entryOf 32)).flatten ++ entryOf 5 ++ entryOf 5) = .inl 5 ∧
    imageCheck ([0, 0, 0, 40] ++ (List.replicate 40 (entryOf 32)).flatten) = .inl 0 := by decide +kernel
/-- R14: 1,025 columns on one port on one line. -/
theorem test_validate_budget :
    validateTiles ((List.range 4).map (fun i => (i, (⟨0, ⟨i % 8, Nat.mod_lt _ (by decide)⟩, 256 * i, 0, 256, 1, false, false, 0, 0⟩ : Tile))) ++
      [(4, ⟨0, 4, 1024, 0, 1, 1, false, false, 0, 0⟩)]) = .failed .portBudget 0 := by decide +kernel
theorem test_closeEdit_ready : ((after (.closeEdit 0 (ask [])) editing).ms.contexts[0]'(by decide)).status = .ready := by
  decide +kernel
/-- Section 2.6 step 10: F = 1001 applies a switch with N = 1000. -/
theorem test_selectSequence_applied :
    ((after (.selectSequence 0 (ask [2, 1, 2, 1, 1, 3, 232])) desk).applyPending 1001).ms.selection =
      .sequence [⟨1, 2⟩, ⟨1, 1⟩] 0 2 := by decide +kernel
/-- R35: N = 1200 is not reached at 998. -/
theorem test_frame_not_reached : frameReached 998 (some 1200) = false ∧ frameReached 1200 (some 1200) = true := by decide
theorem test_selectContext_notReady : answer (after (.selectContext 0 (ask [2])) desk) 0 = some (.notReady, []) := by
  decide +kernel

/-! ## Frames and rows (chapters 3 and 4) -/

theorem test_frameStart_opens : (after (.frameStart 0 7 8 4) desk).ft.frame = some ⟨7, 8, 4⟩ := by decide +kernel
theorem test_frameStart_bad : pendingKinds (after (.frameStart 0 7 0 4) desk) = [.frameLockChanged, .frameDamaged] := by
  decide +kernel
/-- R80: the identity table and brightness 255 give floor(v × 256 / 256); R79: mirrored columns. -/
theorem test_line_corrected :
    (after (.line 0 200 0 1 [0x00000001, 0x3FF00000]) showing).te.map (fun k => k.rows) =
      some [⟨0, [none, some ⟨4095, 0, 0⟩, some ⟨0, 0, 4⟩, none]⟩] := by decide +kernel
theorem test_line_order : (after (.line 0 200 0 1 [0]) { showing with ft := { showing.ft with lastLine := some 0, lastEnd := 2 } }).ft.damage =
    ⟨false, true, false, false⟩ := by decide +kernel
theorem test_frameEnd_lostRuns : (after (.frameEnd 0 200 3) showing).ft.lastClose = some .damaged ∧
    (after (.frameEnd 0 200 0) showing).ft.lastClose = some .complete := by decide +kernel
/-- R82: at the close both rows of the tile are FILLED and queued on port 2. -/
theorem test_frameEnd_rows : ((after (.frameEnd 0 200 0) showing).ports[2]'(by decide)).current = some ⟨200, 2, 0, 0⟩ := by
  decide +kernel
theorem test_holdover : (after (.holdoverDeadlineExpiry 18749) showing).ft.loss = some (18749 + 4 * 16666) := by
  decide +kernel

/-! ## Tile ports (chapter 5) -/

/-- Section 5.12 steps 6 and 7, with one line. -/
theorem test_ready_starts : (after (.readyRises 0 2) (withPort 2 (fun p => { p with queue := [lineOf 0 .current] }) showing)).out =
    [.chain 2 (lineOf 0 .current)] := by decide +kernel
theorem test_transfer_counts : ((after (.transferCompletion 0 2)
    (withPort 2 (fun p => { p with queue := [lineOf 0 .current], transferring := true }) showing)).ports[2]'(by decide)).current =
      some ⟨200, 0, 1, 0⟩ := by decide +kernel
/-- R97: code 0 is 24 Hz, 41,666 microseconds. -/
theorem test_setCadence : (after (.setCadence 0 (anon [0])) desk).cadencePeriod = 41666 := by decide +kernel

/-! ## The record store (chapter 6) -/

/-- A save of C1 into an empty store: the record stands at word 8 and reads back. -/
theorem test_save : (after (.saveCompletion 0 none) (flying .saveContext (some (.context 1)) 8 [1, 2, 3, 0])).rs.bankA =
    [(8, 0x00FF), (9, 0x0201), (10, 4), (11, crcWords [1, 2, 3, 0]), (12, 1), (13, 2), (14, 3), (15, 0)] := by
  decide +kernel
/-- R118: a body word that does not verify. -/
theorem test_save_fault : answer (after (.saveCompletion 0 (some ⟨4, 0, []⟩)) (flying .saveContext (some (.context 1)) 8 [1, 2, 3, 0])) 0 =
    some (.writeFault, []) := by decide +kernel
theorem test_generation_order : newer 1 65535 = true ∧ newer 65535 1 = false ∧ nextGeneration 65535 = 1 := by decide
theorem test_startup_erases : (after (.startupBankChoice 0 none) State.reset).rs.bankA = [(0, 0xC35A), (1, 1), (2, 0x00FF)] := by
  decide +kernel

/-! ## The return lane and enumeration (chapters 7, 9 and 10) -/

theorem test_enumerate : (after (.enumerate 0 ⟨0, 0, 1, [1, 0]⟩) { desk with address := 0 }).address = 1 ∧
    (after (.enumerate 0 ⟨0, 0, 1, [1, 0]⟩) { desk with address := 0 }).out =
      [.forward (controlPacket 38 ⟨0, 0, 1, [2, 0]⟩)] := by decide +kernel
theorem test_reset_soft : (after (.reset 0 (anon [0])) editing).sessions = Vector.replicate 4 none ∧
    pendingKinds (after (.reset 0 (anon [0])) editing) = [.editAbandoned] := by decide +kernel
theorem test_full_reset : (after (.transmissionCompletion 0 well)
    { desk with fullReset := some 0, up := { desk.up with sending := some ⟨.response 0, []⟩ } }).phase = .starting := by
  decide +kernel
/-- R202: a FRAME-START that meets the moment of a FULL reset is lost; one a microsecond later opens a frame. -/
theorem test_full_reset_loses : (after (.frameStart 0 7 8 4) { State.reset with resetAt := some 0 }).ft.frame = none ∧
    (after (.frameStart 1 7 8 4) { State.reset with resetAt := some 0 }).ft.frame = some ⟨7, 8, 4⟩ := by decide +kernel
theorem test_link_timer : (after (.linkTimerExpiry 0) desk).dn.up = false := by decide +kernel
theorem test_overflow : pendingKinds (after (.returnPacket 0 [17]) { desk with dn := { desk.dn with receiving := true, buffer := [[1], [2], [3], [4]] } }) =
    [.trunkIntegrity] := by decide +kernel
theorem test_reset_loses_reception :
    (after (.returnIdle 1) (after (.releaseOfReset 1) (after (.rstnLow 1 ⟨0, 0, []⟩)
      (after (.returnReceptionBegins 1) { desk with dn := { desk.dn with up := false } })))).dn.up = false ∧
    (after (.returnIdle 1)
      (after (.returnReceptionBegins 1) { desk with dn := { desk.dn with up := false } })).dn.up = true := by decide +kernel
theorem test_idle_due : (after (.idleIntervalExpiry 200) desk).out = [.upstream returnIdlePacket] := by decide +kernel

/-! ## A step -/

theorem test_step_takes_front : (match step { desk with pending := [.hold 0 (anon []), .release 0 (anon [])] } with
    | .next t => (t.ms.hold, t.pending)
    | _ => (false, [])) = (true, [.release 0 (anon [])]) := by decide +kernel
theorem test_step_idles : step desk = .next desk := rfl

/-! ## Witnesses: states and operands that meet the hypotheses of the statements -/

/-- What the conditions on a request ask of the state, for the requests of these tests. -/
def able (s : State) : Bool :=
  !s.held && s.resetAt == none && s.address == 5 && s.fullReset == none && s.rq.freeSlot == some 0 && s.phase == .running

theorem addressed {s : State} (h : able s = true) (key seq : Byte) (ops : List Byte) :
    Addressed 0 ⟨5, key, seq, ops⟩ s 0 := by
  simp [able] at h
  obtain ⟨⟨⟨⟨⟨h1, h0⟩, h2⟩, h3⟩, h4⟩, h5⟩ := h
  exact ⟨⟨h1, by simp [h0]⟩, h2.symm, (by decide : (5 : Byte) ≠ 0), (by decide : (5 : Byte) ≠ 255), h3, h4⟩

theorem running {s : State} (h : able s = true) : s.phase = .running := by
  simp [able] at h; exact h.2

theorem inTurn {s : State} {d : Session} (h : able s = true) (hs : s.findSession 9 = some (0, d))
    (hd : ∃ e cache, d.state = .ready e cache) (hl : d.last = 40) (ops : List Byte) : InTurn 0 (ask ops) s 0 0 d :=
  ⟨addressed h .., running h, (by decide : (9 : Byte) ≠ 0), hs, hd, by rw [hl]; rfl⟩

theorem anyOf {s : State} (h : able s = true) (ops : List Byte) :
    Sessionless 0 (anon ops) s 0 ∧ Broadcast 0 (toAll ops) s :=
  ⟨⟨addressed h .., running h, rfl⟩, ⟨(addressed h 0 0 ops).released, rfl, running h, (addressed h 0 0 ops).noReset⟩⟩

/-- The requests of these tests, at one cabinet state: the session's, a sessionless one, a broadcast. -/
def Requests (s : State) : Prop :=
  ∀ ops, InTurn 0 (ask ops) s 0 0 sess ∧ Sessionless 0 (anon ops) s 0 ∧ Broadcast 0 (toAll ops) s

theorem requests {s : State} (h : able s = true) (hs : s.findSession 9 = some (0, sess)) : Requests s :=
  fun ops => ⟨inTurn h hs ⟨_, _, rfl⟩ rfl ops, anyOf h ops⟩

theorem requests_desk : Requests desk := requests (by decide +kernel) (by decide +kernel)
theorem requests_editing : Requests editing := requests (by decide +kernel) (by decide +kernel)
theorem requests_staging : Requests stagingDesk := requests (by decide +kernel) (by decide +kernel)

theorem witness_Storage : StorageOk desk ∧ ∃ t, step desk = .next t :=
  ⟨⟨by decide, by decide, by unfold curvesOk; decide, trivial⟩, _, rfl⟩
theorem witness_Queues : QueuesOk desk ∧ ∃ t, step desk = .next t :=
  ⟨⟨by decide +kernel, by decide +kernel, by decide +kernel⟩, _, rfl⟩
theorem witness_Map : MapOk editing ∧ ∃ t, step editing = .next t := by
  refine ⟨⟨by decide +kernel, ?_, ?_, by decide +kernel, by decide +kernel⟩, _, rfl⟩
  · intro e h; cases h; decide +kernel
  · intro c h
    refine ⟨buffer, rfl, ?_⟩
    revert c; decide +kernel
theorem witness_Sessions : SessionsOk editing ∧ ∃ t, step editing = .next t := by
  have h0 : ∀ i : Fin 4, ∀ d, editing.sessions[i] = some d → i = 0 ∧ d = sess := by
    intro i d h
    match i with
    | 0 => cases h; exact ⟨rfl, rfl⟩
    | 1 | 2 | 3 => cases h
  refine ⟨⟨?_, ?_, ?_, ?_⟩, _, rfl⟩
  · intro i d h; rw [(h0 i d h).2]; decide
  · intro i j d e hi hj _; rw [(h0 i d hi).1, (h0 j e hj).1]
  · intro e h; cases h; exact ⟨0, sess, rfl, rfl⟩
  · intro k t cv h; cases h
theorem witness_Responses : ResponsesOk desk ∧ ∃ t, step desk = .next t := by
  refine ⟨⟨by decide, ?_⟩, _, rfl⟩
  intro i
  constructor
  · intro h; cases h
  · rintro ⟨r, h⟩; match i with | 0 | 1 | 2 | 3 | 4 | 5 | 6 | 7 => cases h
theorem witness_Notices : NoticesOk desk ∧ ∃ t, step desk = .next t := by
  refine ⟨⟨by decide, ?_, ?_, ?_⟩, _, rfl⟩
  · intro k; cases k <;> decide
  · intro k p h; cases k <;> cases h
  · intro k p c h; cases k <;> cases h

theorem witness_ForwardPacketDecodes :
    ((Instr.idle 3).wf = true ∧ forwardPacket (.idle 3) = some idlePacket) ∧
    ((Instr.forwardPacketDropped 3 [0]).wf = true ∧ (Instr.forwardUnknownKind 3 (packet 9 [])).wf = true) ∧
    ((Instr.line 3 1 2 3 [4]).wf = true ∧ (Instr.line 3 1 2 3 (List.replicate 1020 4)).wf = true) ∧
    ((Instr.controlNotAddressed 3 9 ⟨7, 1, 1, []⟩).wf = true ∧
      controlInstr 3 5 9 ⟨7, 1, 1, []⟩ = .controlNotAddressed 3 9 ⟨7, 1, 1, []⟩) ∧
    ((Instr.unknownRequest 3 40 ⟨5, 1, 1, []⟩).wf = true ∧
      controlInstr 3 5 40 ⟨5, 1, 1, []⟩ = .unknownRequest 3 40 ⟨5, 1, 1, []⟩) ∧
    ((Instr.keep 3 ⟨5, 1, 1, []⟩).wf = true ∧ (Instr.keep 3 ⟨5, 1, 1, []⟩).request = some (.keep, ⟨5, 1, 1, []⟩) ∧
      controlInstr 3 5 (reqCode .keep) ⟨5, 1, 1, []⟩ = .keep 3 ⟨5, 1, 1, []⟩) := by decide +kernel

theorem witness_HeldInReset : ({ desk with held := true } : State).held = true ∧
    ({ desk with resetAt := some 7 } : State).resetAt = some (desk.now + (Instr.idle 7).elapsed) ∧
    (forwardPacket (.idle 7)).isSome = true := ⟨rfl, rfl, rfl⟩

/-- The cabinet's lanes receive. -/
theorem witness_Receives : desk.Receives 0 ∧ showing.Receives 0 ∧ ({ desk with resetAt := some 0 } : State).Receives 1 :=
  ⟨⟨rfl, by decide⟩, ⟨rfl, by decide⟩, ⟨rfl, by decide⟩⟩

/-- Two ACTIVE headers of these generations. -/
def banks (a b : Cells Word) : RecordStore := { State.reset.rs with bankA := a, bankB := b }
def header (g : Word) : Cells Word := [(0, 0xC35A), (1, g), (2, 0x00FF)]

theorem witness_StartupBankChoice :
    (State.reset.held = false ∧ State.reset.rs.load = some Load.initial ∧ Load.initial.step = .headers) ∧
    (headerActive (banks (header 3) []).bankA = true ∧ headerActive (banks (header 3) []).bankB = false) ∧
    (1 ≤ ((4 : Word) - 3).toNat ∧ ((4 : Word) - 3).toNat ≤ 32767) ∧
    (((32770 : Word) - 3).toNat = 32767) ∧ ¬(1 ≤ ((3 : Word) - 3).toNat) ∧ ¬(((32771 : Word) - 3).toNat ≤ 32767) ∧
    ((banks [] []).perform (some ⟨1, 0, []⟩) 0 [.erase .A, .program .A 0 0xC35A, .program .A 1 1, .state .A 2 0x00FF .ordinary]).2 =
      some ⟨1, .A, 0⟩ := by decide +kernel

theorem witness_StartupScan :
    (bankRead [] 8 = 0xFFFF ∧ bankRead [] 32767 = 0xFFFF) ∧
    (bankRead [(8, 0x0FFF), (10, 1)] 8 = 0x0FFF ∧ (1 ≤ (bankRead [(8, 0x0FFF), (10, 1)] 10).toNat)) ∧
    (keyOfWord 0x0100 = some .settings ∧ keyOfWord 0x0303 = some (.table 3) ∧ keyOfWord 0x0204 = none) ∧
    (bankRead [(8, 0x00FF), (9, 0x0201), (10, 3200)] 10 = 3200 ∧ 8 + 4 + 3200 ≤ 32768) ∧
    (bankRead [(8, 0x00FF), (10, 3201)] 10 = 3201 ∧ bankRead [(8, 0x00FF), (10, 0)] 10 = 0) ∧
    (bankRead [(8, 0x1234)] 8 ≠ 0xFFFF ∧ bankRead [(8, 0x1234)] 8 ≠ 0x0FFF) := by decide +kernel

/-- The start-up load at a step. -/
def loading (step : LoadStep) (skip : Bool) : State :=
  { State.reset with
      rs := { State.reset.rs with
                bankA := [(8, 0x00FF), (9, 0x0201), (10, 4), (11, crcWords [1, 2, 3, 0]), (12, 1), (13, 2), (14, 3), (15, 0)],
                directory := upd State.reset.rs.directory (RecKey.context 1).idx (some ⟨8, 4, false⟩),
                load := some { Load.initial with step := step, skipScan := skip, stale := [20] } } }

theorem witness_StartupScan_step :
    ((loading .scan false).held = false ∧ (loading .scan false).rs.load.map Load.step = some .scan) ∧
    ((loading .scan true).rs.load.map Load.skipScan = some true) := by decide +kernel

theorem witness_StartupRecordLoad :
    (loading (.records [.context 1]) false).rs.directory[(RecKey.context 1).idx] = some ⟨8, 4, false⟩ ∧
    imageCheck [1, 2, 3, 0] = .inr (⟨1, 2, 3⟩, emptyTable) ∧ validate emptyTable = .ok ∧
    imageCheck [4096, 2, 3, 0] = .inl 0 ∧
    validate (upd emptyTable 5 (some { tile with pos := 1 })) = .failed .gap 5 ∧
    curvesOfBody [] = none ∧ (curvesOfBody (tableBody [])).isSome = true ∧
    (settingsOfBody (settingsBody desk.settings)).isSome = true ∧ settingsOfBody [] = none := by decide +kernel

theorem witness_StartupTidy :
    (loading (.records []) false).rs.load.map Load.step = some (.records []) ∧
    Memory.wf erased ((loading (.records []) false).rs.bank .A) = true ∧
    bankRead [(20, 0x00FF)] 20 &&& (none : Option Word).getD 0 = 0 ∧
    bankRead [(20, 0x00FF)] 20 &&& (some 0x00F0 : Option Word).getD 0 ≠ 0 := by decide +kernel

theorem witness_StartupLoadCompletion : (loading .report false).rs.load.map Load.step = some .report := by decide +kernel

theorem witness_Signal : desk.ft.lock = .noSignal ∧ showing.ft.lock ≠ .noSignal ∧ desk.held = false := by decide

theorem witness_BrokenPackets :
    ({ desk.dn with receiving := true } : Downlink).receiving = true ∧ desk.dn.receiving = false ∧
    (2 ≤ idlePacket.length ∧ idlePacket = idlePacket.take 3 ++ wordBytes (crc16 (idlePacket.take 3))) ∧
    dropReason .forward [0] = some .checkWord ∧ dropReason .return [] = some .checkWord ∧
    (checkWordMatches (packet 4 [3, 6, 41, 28, 2, 2]) = true ∧
      lengthConsistent .forward (packet 4 [3, 6, 41, 28, 2, 2]) = false) ∧
    (checkWordMatches idlePacket = true ∧ lengthConsistent .forward idlePacket = true) := by decide +kernel

theorem witness_FrameStart :
    showing.held = false ∧ (1 ≤ (1 : Word).toNat ∧ (8192 : Word).toNat ≤ 8192) ∧ ¬(1 ≤ (0 : Word).toNat) ∧
    ¬((8193 : Word).toNat ≤ 8192) := by decide

theorem witness_FrameOpen :
    (∀ e ∈ [((0 : Nat), tile)], ¬(4 < e.2.x + e.2.w ∨ 2 < e.2.y + e.2.h)) ∧ (3 < tile.x + tile.w) := by decide

/-- A tracker in a lock state with a complete last frame, a last open at 0 and a measured period. -/
def judged (lock : LockState) (regular measured : Nat) : Tracker :=
  { Tracker.initial with lock := lock, regular := regular, lastOpen := some 0, lastClose := some .complete,
                         measured := some measured }

theorem witness_LockAtFrameOpen :
    ((16900 - 16640) * 64 ≤ 16640 ∧ (judged .acquiring 1 16640).lastOpen = some 0) ∧
    ((judged .acquiring 1 16640).regularOpen 16900 = true ∧ (judged .acquiring 1 16640).regularOpen 16901 = false) ∧
    ((judged .locked 0 1000).regularOpen 1000 = true ∧ (judged .locked 0 1000).regularOpen 999 = false) ∧
    ((judged .locked 0 1000000).regularOpen 1000000 = true ∧ (judged .locked 0 1000000).regularOpen 1000001 = false) ∧
    (judged .holdover 0 1).lock = .holdover ∧ (judged .lost 0 1).lock = .lost := by decide +kernel

/-- Parts that wait. -/
def part (n : Option Word) : SwitchPart := ⟨.context 1, n, .session 9⟩
def waiting (hold : Bool) (install : Option (Fin 8)) (switch : Option SwitchPart) : State :=
  { desk with ms := { desk.ms with hold := hold, install := install, switch := switch },
              cu := { desk.cu with staging := match install with | some t => .held t [] | none => .free } }

theorem witness_PendingChanges :
    (waiting true none none).ms.hold = true ∧
    ((waiting false none none).ms.hold = false ∧ (waiting false none none).ms.install = none) ∧
    (((1000 : Word) - 1000).toNat ≤ 32767 ∧ ((33767 : Word) - 1000).toNat ≤ 32767 ∧
      ¬((33768 : Word) - 1000).toNat ≤ 32767 ∧ ¬((999 : Word) - 1000).toNat ≤ 32767) ∧
    ((waiting false (some 3) none).ms.install = some 3 ∧ (waiting false (some 3) none).cu.staging = .held 3 []) ∧
    (waiting false none (some (part (some 1000)))).ms.switch = some (part (some 1000)) := by decide +kernel

theorem witness_SwitchBecomesTheSelection :
    (waiting false none (some (part none))).ms.hold = false ∧
    (waiting false none (some (part none))).ms.switch = some (part none) ∧ (part none).notBefore = none ∧
    (part (some 7)).notBefore = some 7 ∧ ((7 : Word) - 7).toNat ≤ 32767 := by decide +kernel

theorem witness_Runs :
    (showing.ft.frame = some ⟨200, 8, 4⟩ ∧ showing.held = false) ∧
    (512 < 513 ∧ ¬512 < 512 ∧ 8 < 1 + 8 ∧ ¬8 < 0 + 8 ∧ 4 ≤ 4 ∧ ¬4 ≤ 3) ∧
    ({ showing.ft with lastLine := some 2, lastEnd := 5 } : Tracker).lastLine = some 2 := by decide
theorem witness_Runs_other : ∀ o, showing.ft.frame = some o → o.number ≠ (7 : Word) := by
  intro o h; cases h; decide

theorem witness_AcceptedRun :
    (∃ k, showing.te = some k ∧ (k.map.tiles.map Prod.fst).Nodup ∧ k.map.enabled[tile.port] = true ∧
      (0, tile) ∈ k.map.tiles ∧ (colsOf k.rows (0, tile))[3]? = some none) ∧ tile.y ≤ 1 ∧ 1 < tile.y + tile.h :=
  ⟨⟨_, rfl, by decide, by decide, by decide, by decide⟩, by decide, by decide⟩

theorem witness_PortLines :
    (∃ k, showing.te = some k ∧ k.map.enabled[(2 : Fin 8)] = true ∧ (0, tile) ∈ k.map.tiles ∧ tile.port = 2) ∧
    ((lineOf 0 .current).source = .trunk 200 .current ∧ showing.ports[(2 : Fin 8)].current = some ⟨200, 0, 0, 0⟩) ∧
    ((portLine ⟨200, 8, 4, [(0, tile)], ⟨7, 7, 7⟩, Vector.replicate 8 true⟩ [] 1 2).isSome = true ∧
      ∀ e ∈ [((0 : Nat), tile)], 1 ≤ e.2.w) ∧
    (withPort 2 (fun p => { p with releasePending := true }) showing).ports[(2 : Fin 8)].releasePending = true ∧
    (withPort 2 (fun p => { p with queue := List.replicate 8 (lineOf 0 .current) }) showing).ports[(2 : Fin 8)].queue.length = 8 :=
  ⟨⟨_, rfl, by decide, by decide, by decide⟩, by decide +kernel, by decide +kernel, by decide +kernel, by decide +kernel⟩

theorem witness_FrameClose : desk.ft.frame = none ∧ showing.ft.frame = some ⟨200, 8, 4⟩ ∧ desk.te = none ∧
    (∃ k, showing.te = some k ∧ (∀ e ∈ k.map.tiles, e.2.y + e.2.h ≤ 2) ∧ ∃ e ∈ k.map.tiles, e.2.y + e.2.h = 2) :=
  ⟨rfl, rfl, rfl, _, rfl, by decide, by decide⟩

theorem witness_FramesEnd :
    showing.held = false ∧ showing.ft.frame = some ⟨200, 8, 4⟩ ∧ showing.ft.lineGap = some 25000 ∧
    showing.ft.signal = some 100000 ∧ showing.ft.lock ≠ .noSignal := by decide
theorem witness_FramesEnd_other : ∀ o, showing.ft.frame = some o → o.number ≠ (199 : Word) := by
  intro o h; cases h; decide

theorem witness_LockTimers :
    (({ judged .acquiring 1 1 with acquisition := some 9 } : Tracker).acquisition = some 9 ∧
      (judged .acquiring 1 1).lock = .acquiring) ∧
    (showing.ft.lock = .locked ∧ showing.ft.holdover = some 18749 ∧ showing.ft.reference = some 16666) ∧
    (({ judged .holdover 0 1 with loss := some 9 } : Tracker).loss = some 9) := by decide

/-- A session with another sequence state. -/
def withSession (d : Session) (s : State) : State := { s with sessions := #v[some d, none, none, none] }

theorem witness_SequenceNumbers :
    Addressed 0 (ask []) desk 0 ∧ desk.phase = .running ∧ desk.findSession 77 = none ∧
    desk.findSession 9 = some (0, sess) ∧ (∃ e cache, sess.state = .ready e cache) ∧
    (40 : Byte) = sess.last ∧ (41 : Byte) = sess.last + 1 ∧ ((0 : Byte) = (255 : Byte) + 1) ∧
    (withSession { sess with state := .waiting 1 .compact 40 3 } desk).findSession 9 =
      some (0, { sess with state := .waiting 1 .compact 40 3 }) :=
  ⟨addressed (by decide +kernel) .., by decide, by decide +kernel, by decide +kernel, ⟨_, _, rfl⟩, rfl, rfl, rfl,
    by decide +kernel⟩

/-- Every response slot reserved. -/
def crowded : State := { desk with rq := ⟨Vector.replicate 8 (.reserved 1 1 1), []⟩ }

theorem witness_RequestsRefused :
    (crowded.held = false ∧ crowded.address = 5 ∧ ∀ i : Fin 8, crowded.rq.slots[i] ≠ .free) ∧
    ({ desk with fullReset := some 0 } : State).fullReset ≠ none ∧
    Addressed 0 (anon []) { desk with phase := .starting } 0 ∧ Sessionless 0 (anon []) desk 0 ∧
    ReqKind.keep ∉ ([.readStatus, .readTile, .readPort, .readStoreStatus, .openSession, .enumerate, .selectContext,
      .selectSequence, .cancelSelect, .hold, .release, .forcePattern, .setCadence, .reset] : List ReqKind) := by
  refine ⟨by decide +kernel, by decide, ?_, ((requests_desk []).2).1, by decide⟩
  exact ⟨⟨rfl, by decide⟩, rfl, by decide, by decide, rfl, by decide +kernel⟩

theorem witness_OwnersAndOperands :
    InTurn 0 (ask []) desk 0 0 sess ∧ (¬∃ e, desk.ms.edit = some e ∧ e.owner = 9) ∧
    (¬∃ t curves, desk.cu.staging = .owned 9 t curves) ∧
    InTurn 0 (ask [1]) editing 0 0 sess ∧ (∃ e, editing.ms.edit = some e ∧ e.owner = 9) ∧
    ReqKind.keep.malformed [1] = true ∧ ReqKind.setTile.malformed [1] = true ∧
    InTurn 0 (ask [1]) stagingDesk 0 0 sess ∧ (∃ t curves, stagingDesk.cu.staging = .owned 9 t curves) := by
  refine ⟨(requests_desk _).1, ?_, ?_, (requests_editing _).1, ⟨_, rfl, rfl⟩, by decide, by decide,
    (requests_staging _).1, ⟨_, _, rfl⟩⟩
  · rintro ⟨e, h, _⟩; cases h
  · rintro ⟨t, c, h⟩; cases h

/-- Every session slot taken. -/
def fullHouse : State :=
  { desk with sessions := #v[some sess, some { sess with key := 1 }, some { sess with key := 2 }, some { sess with key := 3 }] }

theorem witness_OpenSession :
    (Addressed 0 ⟨5, 20, 3, [20, byteOf (15 : Fin 16).1]⟩ desk 0 ∧ desk.findSession 20 = none) ∧
    (desk.sessions[(1 : Fin 4)] = none ∧ ∀ j : Fin 4, j < 1 → desk.sessions[j] ≠ none) ∧
    (fullHouse.findSession 20 = none ∧ ∀ i : Fin 4, fullHouse.sessions[i] ≠ none) ∧
    (withSession { sess with state := .ready 1 ⟨reqCode .openSession, 40, .ok, []⟩ } desk).findSession 9 =
      some (0, { sess with state := .ready 1 ⟨reqCode .openSession, 40, .ok, []⟩ }) ∧
    ¬(sess.last = 41 ∧ (3 : Byte) = reqCode .openSession) ∧
    (Addressed 0 (ask []) desk 0 ∧ Addressed 0 (ask [0, 15]) desk 0 ∧ Addressed 0 (ask [1, 16]) desk 0) :=
  ⟨⟨addressed (by decide +kernel) .., by decide +kernel⟩, by decide +kernel, by decide +kernel, by decide +kernel,
    by decide, addressed (by decide +kernel) .., addressed (by decide +kernel) .., addressed (by decide +kernel) ..⟩

theorem witness_SessionEnds :
    InTurn 0 (ask []) editing 0 0 sess ∧ desk.held = false ∧ desk.sessions[(0 : Fin 4)] = some sess ∧
    sess.state = .ready 5000000 ⟨3, 40, .ok, []⟩ := ⟨(requests_editing []).1, rfl, rfl, rfl⟩

theorem witness_Keep : InTurn 0 (ask []) desk 0 0 sess ∧ InTurn 0 (ask [1]) desk 0 0 sess ∧ Sessionless 0 (anon []) desk 0 :=
  ⟨(requests_desk []).1, (requests_desk [1]).1, (requests_desk []).2.1⟩

theorem witness_Reads :
    Requests desk ∧ Requests editing ∧ desk.ms.edit = none ∧ editing.ms.edit = some buffer ∧
    Addressed 0 (anon [0]) { desk with phase := .starting } 0 :=
  ⟨requests_desk, requests_editing, rfl, rfl, ⟨⟨rfl, by decide⟩, rfl, by decide, by decide, rfl, by decide +kernel⟩⟩

/-- The session with a cursor. -/
def at' (t : CursorTarget) (pos : Nat) : Session := { sess with cursor := some ⟨t, pos⟩ }

theorem witness_Cursor :
    InTurn 0 (ask ([byteOf 0, byteOf 2] ++ bytes2 1023)) desk 0 0 sess ∧
    InTurn 0 (ask ([8, byteOf 2] ++ bytes2 1023)) stagingDesk 0 0 sess ∧ stagingDesk.cu.staging = .owned 9 3 [] ∧
    InTurn 0 (ask (byteOf 1 :: [4095].flatMap bytes2)) (withSession (at' .staging 3071) stagingDesk) 0 0 (at' .staging 3071) ∧
    InTurn 0 (ask [byteOf 24]) (withSession (at' (.table 7) 3048) desk) 0 0 (at' (.table 7) 3048) ∧
    (3071 + 1 ≤ 3072 ∧ 3072 < 3072 + 1 ∧ 3048 + 24 ≤ 3072 ∧ sess.cursor = none) :=
  ⟨(requests_desk _).1, (requests_staging _).1, rfl,
    inTurn (by decide +kernel) (by decide +kernel) ⟨_, _, rfl⟩ rfl _,
    inTurn (by decide +kernel) (by decide +kernel) ⟨_, _, rfl⟩ rfl _, by decide⟩

theorem witness_OpenEdit :
    Requests desk ∧ Requests editing ∧ (editing.ms.contexts[(0 : Fin 4)].status = .opened) ∧
    (editing.ms.contexts[(2 : Fin 4)].status ≠ .opened ∧ editing.ms.edit ≠ none) ∧
    (desk.ms.contexts[(1 : Fin 4)].status ≠ .opened ∧ desk.ms.inUse 1 = true ∧ desk.ms.edit = none) ∧
    (desk.ms.contexts[(3 : Fin 4)].status = .blank ∧ desk.ms.inUse 3 = false) ∧
    ({ desk.ms with selection := .none } : MapStore).inUse 1 = false :=
  ⟨requests_desk, requests_editing, by decide +kernel, by decide +kernel, by decide +kernel, by decide +kernel,
    by decide +kernel⟩

theorem witness_Edits :
    InTurn 0 (ask (byteOf (31 : Fin 32).1 :: tileBytes { tile with x := 8191, w := 256, bright := 255 })) editing 0 0 sess ∧
    InTurn 0 (ask [byteOf (31 : Fin 32).1]) editing 0 0 sess ∧
    InTurn 0 (ask (bytes2 4095 ++ bytes2 0 ++ bytes2 4095)) editing 0 0 sess ∧
    editing.ms.edit = some buffer ∧ buffer.owner = 9 :=
  ⟨(requests_editing _).1, (requests_editing _).1, (requests_editing _).1, rfl, rfl⟩

theorem witness_EditsChecked :
    InTurn 0 (ask []) editing 0 0 sess ∧ validate buffer.table = .ok ∧
    validate (upd emptyTable 0 (some { tile with x := 8190 })) = .failed .range 0 ∧
    (∃ op, (flying .saveContext (some (.context 0)) 8 []).rs.op = some op ∧ op.kind = .saveContext ∧
      op.recKey = some (.context 0)) ∧ editing.rs.op = none :=
  ⟨(requests_editing []).1, by decide +kernel, by decide +kernel, ⟨_, rfl, rfl, rfl⟩, rfl⟩

/-- Each check failing first, at the slot it names: two tiles of slots 0 and 31 on one position, and 1,025 columns. -/
theorem witness_Validation :
    validate (upd emptyTable 31 (some { tile with y := 8191 })) = .failed .range 31 ∧
    validate (upd (upd emptyTable 31 (some tile)) 0 (some tile)) = .failed .duplicatePosition 0 ∧
    validate (upd emptyTable 31 (some { tile with pos := 1 })) = .failed .gap 31 ∧
    imageCheck ([4095, 0, 0, 1] ++ entryOf 31) =
      .inr (⟨4095, 0, 0⟩, upd emptyTable 31 (some ⟨0, 0, 0, 0, 1, 1, false, false, 0, 0⟩)) ∧
    imageCheck ([0, 0, 0, 2] ++ entryOf 31 ++ [30, 0x0800, 0, 0, 0, 0]) = .inl 30 ∧
    imageCheck ([4096, 0, 0, 1] ++ entryOf 31) = .inl 0 := by decide +kernel

theorem witness_Selections :
    Requests desk ∧ desk.ms.contexts[(1 : Fin 4)].status = .ready ∧ desk.ms.contexts[(2 : Fin 4)].status ≠ .ready ∧
    (∀ e ∈ ([⟨1, 1⟩, ⟨1, 255⟩] : List SeqEntry), 1 ≤ e.count ∧ e.count ≤ 255) ∧
    (List.replicate 8 (⟨1, 1⟩ : SeqEntry)).length ≤ 8 ∧
    ([⟨1, 1⟩, ⟨2, 1⟩] : List SeqEntry) = [⟨1, 1⟩] ++ ⟨2, 1⟩ :: [] :=
  ⟨requests_desk, by decide +kernel, by decide +kernel, by decide, by decide, rfl⟩

theorem witness_Cancel : Requests desk ∧ desk.ms.switch = none ∧ Requests (waiting false none (some (part none))) ∧
    (waiting false none (some (part none))).ms.switch ≠ none :=
  ⟨requests_desk, rfl, requests (by decide +kernel) (by decide +kernel), by decide +kernel⟩

theorem witness_HoldReleaseCadence : Requests desk := requests_desk

theorem witness_Staging :
    InTurn 0 (ask [byteOf (7 : Fin 8).1, 0]) desk 0 0 sess ∧ desk.cu.staging = .free ∧ stagingDesk.cu.staging ≠ .free ∧
    InTurn 0 (ask []) stagingDesk 0 0 sess ∧
    (∃ op, ({ desk.rs with op := some ⟨.saveTable, some (.table 7), 9, 0, true, 8, []⟩ } : RecordStore).op = some op ∧
      op.kind = .saveTable ∧ op.recKey = some (.table 7)) :=
  ⟨(requests_desk _).1, rfl, by decide +kernel, (requests_staging _).1, ⟨_, rfl, rfl, rfl⟩⟩

theorem witness_SetPort : InTurn 0 (ask [byteOf (7 : Fin 8).1, yesNo false, byteOf (lossCode .pattern), byteOf (patternCode .grid)])
    desk 0 0 sess ∧ desk.ports[(7 : Fin 8)].config.enabled = true := ⟨(requests_desk _).1, by decide +kernel⟩

theorem witness_ForcePattern : Requests desk := requests_desk

/-- A kind pending, or in transmission with a carry. -/
def noticed (cls : Fin 4) (p : Option Pending) : State :=
  { desk with ns := ⟨upd desk.ns.slots NoticeKind.downstreamLink.idx ⟨cls, p⟩, [.downstreamLink]⟩ }
def down : Detail := .downstreamLink false

theorem witness_Notice :
    (noticed 3 none).ns.slots[NoticeKind.downstreamLink.idx] = ⟨3, none⟩ ∧
    (noticed 1 (some ⟨255, down, down, false, none⟩)).ns.slots[NoticeKind.downstreamLink.idx].body =
      some ⟨255, down, down, false, none⟩ ∧
    (noticed 1 (some ⟨1, down, down, true, none⟩)).ns.slots[down.kind.idx].cls = 1 ∧
    (noticed 1 (some ⟨1, down, down, true, some ⟨1, down, down⟩⟩)).ns.slots[down.kind.idx].cls = 1 := by decide +kernel
theorem witness_NoticeClass : InTurn 0 (ask [byteOf NoticeKind.addressAssigned.idx.1, byteOf (3 : Fin 4).1]) desk 0 0 sess :=
  (requests_desk _).1

/-- The cabinet with its append point and full mark. -/
def stored (append : Nat) (full : Bool) (s : State) : State :=
  { s with rs := { s.rs with append := append, full := full,
                             directory := upd s.rs.directory (RecKey.context 1).idx (some ⟨8, 4, false⟩) } }

theorem witness_StoreRequests :
    InTurn 0 (ask [byteOf (1 : Fin 4).1]) (stored 32760 false desk) 0 0 sess ∧ 32760 + 4 + (contextImage ⟨.ready, emptyTable, ⟨1, 2, 3⟩⟩).length ≤ 32768 ∧
    32768 < 32761 + 4 + (contextImage ⟨.ready, emptyTable, ⟨1, 2, 3⟩⟩).length ∧
    InTurn 0 (ask [byteOf (keyIndex (some (.context 1)))]) (stored 12 true editing) 0 0 sess ∧
    (stored 12 true editing).rs.full = true ∧ (stored 12 false desk).rs.op = none ∧
    (stored 12 false desk).rs.directory[(RecKey.context 1).idx] = some ⟨8, 4, false⟩ ∧
    (stored 12 false desk).rs.directory[(RecKey.table 1).idx] = none ∧
    InTurn 0 (ask []) { desk with rs := { desk.rs with op := some ⟨.compact, none, 1, 1, true, 8, []⟩ } } 0 0 sess ∧
    InTurn 0 (ask [byteOf (keyIndex (some (.table 3)))]) (stored 12 false stagingDesk) 0 0 sess :=
  ⟨inTurn (by decide +kernel) (by decide +kernel) ⟨_, _, rfl⟩ rfl _, by decide +kernel, by decide +kernel,
    inTurn (by decide +kernel) (by decide +kernel) ⟨_, _, rfl⟩ rfl _, rfl, rfl, by decide +kernel, by decide +kernel,
    inTurn (by decide +kernel) (by decide +kernel) ⟨_, _, rfl⟩ rfl _,
    inTurn (by decide +kernel) (by decide +kernel) ⟨_, _, rfl⟩ rfl _⟩

/-- The operation of `flying` with its session. -/
theorem inFlight (kind : ReqKind) (k : Option RecKey) (addr : Nat) (body : List Word) :
    InFlight (flying kind k addr body) ⟨kind, k, 9, 0, true, addr, body⟩
      { sess with last := 41, state := .waiting 4000000 kind 41 0 } kind 41 0 :=
  ⟨rfl, rfl, rfl, rfl, ⟨_, rfl⟩⟩

/-- The same operation after a SOFT reset has ended its session. -/
def ended (kind : ReqKind) (k : Option RecKey) (addr : Nat) (body : List Word) : State :=
  { desk with sessions := Vector.replicate 4 none, rs := { desk.rs with op := some ⟨kind, k, 9, 0, false, addr, body⟩ } }

/-- The cabinet with a record of C1 at word 8, saving another at word 16. -/
def replacing : State :=
  { stored 24 false (flying .saveContext (some (.context 1)) 16 [1, 2, 3, 0]) with
      rs := { (stored 24 false (flying .saveContext (some (.context 1)) 16 [1, 2, 3, 0])).rs with
                bankA := [(8, 0x00FF), (9, 0x0201), (10, 4), (11, crcWords [1, 2, 3, 0]), (12, 1), (13, 2), (14, 3),
                          (15, 0)] } }

/-- Past the last entry of a bank every word is erased. -/
theorem erased_past {a n : Nat} (h : n ≤ a) :
    ∀ {c : Cells Word}, (∀ e ∈ c, e.1 < n) → bankRead c a = 0xFFFF
  | [], _ => rfl
  | (b, v) :: c, hc => by
    have hb : b < n := hc (b, v) (List.mem_cons_self ..)
    rw [bankRead, cellRead, if_neg (by omega), if_neg (by omega)]
    exact erased_past h fun e he => hc e (List.mem_cons_of_mem _ he)

/-- The two state words of the save of `replacing` as a cut leaves them: of the new record and of the replaced one. -/
def cutSave (step : Nat) (word : Word) : Word × Word :=
  (bankRead (replacing.rs.cut ⟨step, word, []⟩).bankA 16, bankRead (replacing.rs.cut ⟨step, word, []⟩).bankA 8)

theorem test_cut_save :
    (cutSave 0 0x00FF = (0xFFFF, 0x00FF) ∧ cutSave 0 0x0FFF = (0x0FFF, 0x00FF) ∧ cutSave 0 0x1234 = (0x1234, 0x00FF)) ∧
    (cutSave 1 0 = (0x0FFF, 0x00FF) ∧ cutSave 7 0 = (0x0FFF, 0x00FF)) ∧
    (cutSave 8 0 = (0x0FFF, 0x00FF) ∧ cutSave 8 0x00FF = (0x00FF, 0x00FF) ∧ cutSave 8 0x01FF = (0x01FF, 0x00FF)) ∧
    (cutSave 9 0x000F = (0x00FF, 0x00FF) ∧ cutSave 9 0 = (0x00FF, 0x0000)) := by decide +kernel

theorem witness_SaveCut :
    replacing.rs.load = none ∧ Memory.wf erased (replacing.rs.bank replacing.rs.active) = true ∧
    (∀ a, 16 ≤ a → bankRead (replacing.rs.bank replacing.rs.active) a = 0xFFFF) ∧
    (∀ e, replacing.rs.directory[(RecKey.context 1).idx] = some e →
      e.addr < 16 ∧ bankRead (replacing.rs.bank replacing.rs.active) e.addr = 0x00FF) :=
  ⟨rfl, by decide +kernel, fun _ h => erased_past h (by decide +kernel), fun e he => by
    have : (⟨8, 4, false⟩ : DirEntry) = e := Option.some.inj he
    subst this; decide +kernel⟩

theorem witness_SaveCompletion :
    (InFlight (flying .saveContext (some (.context 1)) 8 [1, 2, 3, 0]) ⟨.saveContext, some (.context 1), 9, 0, true, 8, [1, 2, 3, 0]⟩
      { sess with last := 41, state := .waiting 4000000 .saveContext 41 0 } .saveContext 41 0) ∧
    ((flying .saveContext (some (.context 1)) 8 [1, 2, 3, 0]).rs.perform none 0
      (writeRecord .A 8 0x0201 4 (crcWords [1, 2, 3, 0]) [1, 2, 3, 0])).2 = none ∧
    ((flying .saveContext (some (.context 1)) 8 [1, 2, 3, 0]).rs.perform (some ⟨8, 0x0FFF, []⟩) 0
      (writeRecord .A 8 0x0201 4 (crcWords [1, 2, 3, 0]) [1, 2, 3, 0])).2 = some ⟨8, .A, 8⟩ ∧
    Memory.wf erased desk.rs.bankA = true ∧
    ((replacing.rs.directory[(RecKey.context 1).idx] = some ⟨8, 4, false⟩ ∧ 8 < 16) ∧
      (replacing.rs.perform none 0
        (writeRecord .A 16 0x0201 4 (crcWords [1, 2, 3, 0]) [1, 2, 3, 0] ++ [.state .A 8 0 .replaced])).2 = none) ∧
    ((ended .saveContext (some (.context 1)) 8 []).held = false ∧
      (ended .saveContext (some (.context 1)) 8 []).rs.op = some ⟨.saveContext, some (.context 1), 9, 0, false, 8, []⟩) :=
  ⟨inFlight .., by decide +kernel, by decide +kernel, by decide, by decide +kernel, rfl, rfl⟩

theorem witness_RestoreCompletions :
    (InFlight (flying .restoreContext (some (.context 1)) 8 [1, 2, 3, 0]) ⟨.restoreContext, some (.context 1), 9, 0, true, 8, [1, 2, 3, 0]⟩
      { sess with last := 41, state := .waiting 4000000 .restoreContext 41 0 } .restoreContext 41 0) ∧
    bankRead [(11, crcWords [1, 2, 3, 0])] 11 = crcWords [1, 2, 3, 0] ∧ bankRead [] 11 ≠ crcWords [1, 2, 3, 0] ∧
    editing.ms.edit = some buffer ∧ stagingDesk.cu.staging = .owned 9 3 [] ∧
    ((ended .restoreContext (some (.context 1)) 8 []).rs.op = some ⟨.restoreContext, some (.context 1), 9, 0, false, 8, []⟩ ∧
      (ended .restoreTable (some (.table 1)) 8 []).rs.op = some ⟨.restoreTable, some (.table 1), 9, 0, false, 8, []⟩) ∧
    ((List.replicate 3072 (4095 : Word)).length = 3072 ∧ ∀ w ∈ List.replicate 3072 (4095 : Word), w.toNat < 4096) :=
  ⟨inFlight .., by decide +kernel, by decide +kernel, rfl, rfl, ⟨rfl, rfl⟩, List.length_replicate,
    fun w h => by rw [List.eq_of_mem_replicate h]; decide⟩

theorem witness_OtherCompletions :
    InFlight (flying .deleteRecord (some .settings) 8 []) ⟨.deleteRecord, some .settings, 9, 0, true, 8, []⟩
      { sess with last := 41, state := .waiting 4000000 .deleteRecord 41 0 } .deleteRecord 41 0 ∧
    InFlight (flying .eraseStore none 8 []) ⟨.eraseStore, none, 9, 0, true, 8, []⟩
      { sess with last := 41, state := .waiting 4000000 .eraseStore 41 0 } .eraseStore 41 0 ∧
    InFlight (flying .compact none 8 []) ⟨.compact, none, 9, 0, true, 8, []⟩
      { sess with last := 41, state := .waiting 4000000 .compact 41 0 } .compact 41 0 ∧
    (desk.rs.perform none 0 [.erase .A, .erase .B, .program .A 0 0xC35A, .program .A 1 1, .state .A 2 0x00FF .ordinary]).2 = none ∧
    (desk.rs.perform (some ⟨1, 0, [(3, 0)]⟩) 0 [.erase .A, .erase .B]).2 = some ⟨1, .B, 3⟩ ∧
    ((stored 24 false (flying .deleteRecord (some (.context 1)) 8 [])).rs.op =
        some ⟨.deleteRecord, some (.context 1), 9, 0, true, 8, []⟩ ∧
      (stored 24 false (flying .deleteRecord (some (.context 1)) 8 [])).rs.directory[(RecKey.context 1).idx] =
        some ⟨8, 4, false⟩) ∧
    ((ended .compact none 8 []).held = false ∧ (ended .compact none 8 []).rs.op = some ⟨.compact, none, 9, 0, false, 8, []⟩) :=
  ⟨inFlight .., inFlight .., inFlight .., by decide +kernel, by decide +kernel, by decide +kernel, rfl, rfl⟩

/-- The cabinet deleting its record of C1. -/
def deleting : State :=
  { replacing with rs := { replacing.rs with op := some ⟨.deleteRecord, some (.context 1), 9, 0, false, 8, []⟩ } }

/-- The cabinet compacting a store of two ACTIVE banks, of which bank A with C1 at word 8 is the newer. -/
def compacting : State :=
  let s := stored 16 false (flying .compact none 8 [])
  { s with rs := { s.rs with
                     generation := 3, bankB := header 2,
                     bankA := header 3 ++ [(8, 0x00FF), (9, 0x0201), (10, 4), (11, crcWords [1, 2, 3, 0]), (12, 1),
                                           (13, 2), (14, 3), (15, 0)] } }

/-- The bank that the load chooses after a cut of that compaction. -/
def cutCompact (step : Nat) (word : Word) (cells : Cells Word) : Option BankId :=
  (compacting.rs.cut ⟨step, word, cells⟩).choice

theorem test_cut_compaction :
    (cutCompact 0 0 (header 9) = some .A ∧ cutCompact 0 0 (header 2) = some .A ∧ cutCompact 3 0x00FF [] = some .A) ∧
    (cutCompact 13 0x00FF [] = some .A ∧ cutCompact 13 0x0100 [] = some .A) ∧
    (cutCompact 14 0x00FF [] = some .B ∧ cutCompact 14 0 [] = some .B ∧ cutCompact 15 0 [] = some .B) := by decide +kernel

theorem witness_Cuts :
    (compacting.rs.load = none ∧ Memory.wf erased compacting.rs.bankA = true ∧
      Memory.wf erased compacting.rs.bankB = true ∧ compacting.rs.choice = some compacting.rs.active ∧
      bankRead (compacting.rs.bank compacting.rs.active) 1 = compacting.rs.generation) ∧
    (flying .eraseStore none 8 []).rs.load = none ∧
    (deleting.held = false ∧ deleting.rs.load = none ∧
      deleting.rs.op = some ⟨.deleteRecord, some (.context 1), 9, 0, false, 8, []⟩ ∧
      deleting.rs.directory[(RecKey.context 1).idx] = some ⟨8, 4, false⟩ ∧
      Memory.wf erased (deleting.rs.bank deleting.rs.active) = true ∧
      bankRead (deleting.rs.bank deleting.rs.active) 8 = 0x00FF) := by decide +kernel

theorem witness_Enumeration :
    desk.held = false ∧ enumerateOperands [0, 0] = none ∧ (desk.address ≠ 0 ∧ crowded.rq.freeSlot = none) ∧
    (desk.rq.freeSlot = some 0 ∧ desk.fullReset = none) ∧ ((250 : Byte).toNat ≤ 250 ∧ 250 < (251 : Byte).toNat) ∧
    Sessionless 0 (anon [1, 0]) desk 0 ∧ InTurn 0 (ask [1, 0]) desk 0 0 sess :=
  ⟨rfl, by decide, by decide +kernel, by decide +kernel, by decide, (requests_desk _).2.1, (requests_desk _).1⟩

theorem witness_Reset :
    Sessionless 0 (anon [0]) desk 0 ∧ InTurn 0 (ask [1]) desk 0 0 sess ∧
    ({ desk with fullReset := some 3, up := { desk.up with sending := some ⟨.response 3, []⟩ } } : State).up.sending =
      some ⟨.response 3, []⟩ := ⟨(requests_desk _).2.1, (requests_desk _).1, rfl⟩

theorem witness_PortsTransfer :
    (withPort 2 (fun p => { p with queue := [lineOf 0 .last], transferring := true }) showing).ports[(2 : Fin 8)].queue =
      [lineOf 0 .last] ∧
    (withPort 2 (fun p => { p with queue := [lineOf 0 .last], stallTimer := some 5 }) showing).ports[(2 : Fin 8)].stallTimer = some 5 ∧
    showing.held = false := by decide +kernel

/-- A generated frame of one tile. -/
def frameOf : GenFrame := ⟨false, .bars, [(0, tile)], Rgb.black, 0⟩

theorem witness_PortsGenerate :
    (desk.held = false ∧ desk.cadenceTimer = some 16666) ∧
    (desk.ports[(2 : Fin 8)].config.enabled = true ∧ desk.ports[(2 : Fin 8)].gen = none ∧ desk.ft.lock = .noSignal ∧
      desk.ft.frame = none ∧ desk.ports[(2 : Fin 8)].config.loss = .dark) ∧
    (frameOf.nextLine = some 0 ∧ ({ frameOf with nextY := 1 } : GenFrame).nextLine = some 1 ∧
      ({ frameOf with nextY := 2 } : GenFrame).nextLine = none) ∧ (∀ e ∈ frameOf.tiles, 1 ≤ e.2.h) ∧
    (tile.w = 4 ∧ 3 < tile.w ∧ 1 < tile.h ∧ tile.w ≠ 1 ∧ ({ tile with w := 1 } : Tile).w = 1) ∧
    (0 * 8 / 8 ≤ 0 ∧ 0 < (0 + 1) * 8 / 8 ∧ 7 * 9 / 8 ≤ 8 ∧ 8 < (7 + 1) * 9 / 8) := by decide +kernel

theorem witness_Downstream :
    desk.held = false ∧ desk.dn.buffer.length < 4 ∧ desk.dn.linkTimer = some 2000 ∧
    4 ≤ ({ desk.dn with buffer := [[1], [2], [3], [4]] } : Downlink).buffer.length ∧
    desk.dn.receiving = false ∧ ({ desk.dn with receiving := true } : Downlink).receiving = true := by decide

/-- The cabinet with a filled response. -/
def answered : State := after (.keep 0 (ask [])) desk

theorem witness_Upstream :
    (answered.rq.order = [0] ∧ answered.held = false ∧ answered.up.sending = none ∧ answered.up.holdIn = false ∧
      answered.localOffer = some (.response 0)) ∧
    (desk.localOffer = none ∧ desk.dn.buffer = [] ∧ desk.up.idleTimer = some 200) ∧
    ((noticed 1 (some ⟨1, down, down, false, none⟩)).ns.list = [] ++ .downstreamLink :: [] ∧
      (noticed 1 (some ⟨1, down, down, false, none⟩)).address ≠ 0) ∧
    (answered.rq.slots[(0 : Fin 8)] = .filled ⟨5, 9, 41, 3, .ok, [7, 0, 5, 0]⟩ ∧
      ({ desk.dn with buffer := [[1], [2]] } : Downlink).buffer = [1] :: [[2]]) ∧
    ({ desk.up with holdIn := true } : Uplink).holdIn = true := by decide +kernel

/-- A transmission in progress. -/
def sending (src : SendSource) (s : State) : State := { s with up := { s.up with sending := some ⟨src, []⟩ } }

theorem witness_TransmissionEnds :
    (sending (.response 0) desk).up.sending = some ⟨.response 0, []⟩ ∧ desk.fullReset = none ∧
    (noticed 1 (some ⟨1, down, down, true, none⟩)).ns.slots[NoticeKind.downstreamLink.idx].body =
      some ⟨1, down, down, true, none⟩ ∧
    (noticed 1 none).ns.slots[NoticeKind.downstreamLink.idx].body = none ∧
    (sending .pass desk).up.sending = some ⟨.pass, []⟩ ∧ (sending .idle desk).up.sending = some ⟨.idle, []⟩ := by
  decide +kernel

end Sys2Proof.Tests
end

section
/-!
PROOFS. The switch part of the pending change set: applied at a frame open (R35, R36, R38), and cancelled by
CANCEL-SELECT (R32).
-/

namespace Sys2Proof.Machine

/-! ## The switch part at a frame open -/

/-- Numbers are compared over half the circle (R35). -/
theorem frameReached_iff {f : Word} {notBefore : Option Word} :
    frameReached f notBefore = true ↔
      notBefore = none ∨ ∃ n, notBefore = some n ∧ (f - n).toNat ≤ 32767 := by
  cases notBefore with
  | none => simp [frameReached]
  | some n => simp [frameReached]

theorem MapStore.switchDue_eq_some {m : MapStore} {f : Word} {w : SwitchPart} :
    m.switchDue f = some w ↔ m.hold = false ∧ m.switch = some w ∧ frameReached f w.notBefore = true := by
  cases hold : m.hold with
  | true => simp [MapStore.switchDue, hold]
  | false => simp [MapStore.switchDue, hold]

/-- A switch that is due replaces the selection whole and leaves the set (R38). -/
theorem MapStore.applied_of_switchDue {m : MapStore} {f : Word} {w : SwitchPart} (due : m.switchDue f = some w) :
    m.applied f =
      { m with install := if m.installDue.isSome then none else m.install,
               selection := w.target.selection, switch := none } := by
  simp only [MapStore.applied, due]

@[simp] theorem State.applyPending_ms (f : Word) (s : State) : (s.applyPending f).ms = s.ms.applied f := by
  unfold State.applyPending
  exact State.raiseIf_ms ..

@[simp] theorem Target.selection_context (c : Fin 4) : (Target.context c).selection = .context c := rfl

@[simp] theorem Target.selection_sequence_cons (e : SeqEntry) (es : List SeqEntry) :
    (Target.sequence (e :: es)).selection = .sequence (e :: es) 0 e.count := rfl

/-- Settles O24: with HOLD clear and its not-before frame reached the part is due, and the Map Store after the open
has the selection of its target. -/
theorem switchBecomesTheSelection : Obligations.SwitchBecomesTheSelection := by
  intro f w s hold present reached
  have due : s.ms.switchDue f = some w :=
    MapStore.switchDue_eq_some.mpr ⟨hold, present, frameReached_iff.mpr reached⟩
  rw [State.applyPending_ms, MapStore.applied_of_switchDue due]
  refine ⟨rfl, ?context, ?sequence⟩
  case context =>
    intro c target
    simp [target]
  case sequence =>
    intro e es target
    simp [target]

/-! ## CANCEL-SELECT -/

theorem cancelSelectBody_present {k : Call} {s : State} (ops : k.ops = []) (present : s.ms.switch ≠ none) :
    cancelSelectBody k s = ({ s with ms := { s.ms with switch := none } }, .answer .ok []) := by
  simp [cancelSelectBody, noOperands, done, ops, Option.isSome_iff_ne_none.mpr present]

theorem cancelSelectBody_absent {k : Call} {s : State} (ops : k.ops = []) (absent : s.ms.switch = none) :
    cancelSelectBody k s = (s, .answer .notFound []) := by
  simp [cancelSelectBody, noOperands, refuse, ops, absent]

/-- Settles O44, for the three forms of the request at once: the state the request is tested in has the Map Store as
it was, so the switch part is present there exactly when it was before. -/
theorem cancelSelectRemovesTheSwitchPart : Obligations.CancelSelectRemovesTheSwitchPart := by
  intro dt c s ops
  constructor
  · intro present
    refine answeredAny cancelSelectBody rfl rfl rfl (fun k t same tested => ?_) (fun _ _ => rfl)
    exact cancelSelectBody_present (same.trans ops) (tested.ms ▸ present)
  · intro absent
    refine answeredAny cancelSelectBody rfl rfl rfl (fun k t same tested => ?_) (fun _ _ => rfl)
    exact cancelSelectBody_absent (same.trans ops) (tested.ms ▸ absent)

end Sys2Proof.Machine
end

section
/-!
PROOFS. The Frame Tracker's runs and frame ends: a LINE is counted, checked and accepted (R49 to R52), and a frame
closes on a FRAME-END, on the line-gap timer and on loss of signal (R53, R54, R56, R60).
-/

namespace Sys2Proof.Machine

/-! ## The commands -/

theorem exec_line (dt : Nat) (f y x0 : Word) (px : List PixelWord) (s : State) :
    exec (.line dt f y x0 px) s = execLine dt f y x0 px s := rfl

theorem exec_frameEnd (dt : Nat) (f n : Word) (s : State) : exec (.frameEnd dt f n) s = execFrameEnd dt f n s := rfl

theorem exec_lineGapTimerExpiry (dt : Nat) (s : State) :
    exec (.lineGapTimerExpiry dt) s = execLineGapTimerExpiry dt s := rfl

theorem exec_signalTimerExpiry (dt : Nat) (s : State) :
    exec (.signalTimerExpiry dt) s = execSignalTimerExpiry dt s := rfl

/-! ## What a packet's arrival leaves of the Frame Tracker -/

section
variable (now : Nat) (t : Tracker)

@[simp] theorem Tracker.packet_lastLine : (t.packet now).lastLine = t.lastLine := by
  unfold Tracker.packet; split <;> rfl

@[simp] theorem Tracker.packet_lastEnd : (t.packet now).lastEnd = t.lastEnd := by
  unfold Tracker.packet; split <;> rfl

@[simp] theorem Tracker.packet_runs : (t.packet now).runs = t.runs := by
  unfold Tracker.packet; split <;> rfl

@[simp] theorem Tracker.packet_damage : (t.packet now).damage = t.damage := by
  unfold Tracker.packet; split <;> rfl

end

/-! ## The Tile Engine and the tile ports leave the Frame Tracker -/

section
variable (m : FrameMap) (rows : List RowProgress) (y : Nat) (s : State)

@[simp] theorem State.handLine_ft (i : Fin 8) (f : Word) (l : PortLine) : (s.handLine i f l).ft = s.ft := by
  unfold State.handLine; dsimp only; split <;> rfl

@[simp] theorem State.handPort_ft (p : Fin 8) : (s.handPort m rows y p).ft = s.ft := by
  unfold State.handPort
  split
  · exact State.handLine_ft ..
  · rfl

@[simp] theorem State.completeLine_ft : (s.completeLine m rows y).ft = s.ft := by
  simp [State.completeLine, portIndices]

@[simp] theorem State.completeLines_ft (n : Nat) : (s.completeLines m n rows y).ft = s.ft := by
  induction n generalizing rows y s with
  | zero => rfl
  | succ n ih => simp [State.completeLines, ih]

@[simp] theorem State.engineRun_ft (x0 : Nat) (px : List PixelWord) : (s.engineRun y x0 px).ft = s.ft := by
  unfold State.engineRun
  split
  · rfl
  · exact State.completeLines_ft ..

@[simp] theorem State.engineClose_ft (truncated : Bool) : (s.engineClose truncated).ft = s.ft := by
  unfold State.engineClose
  split
  · rfl
  · exact State.completeLines_ft ..

@[simp] theorem State.portsClose_ft : s.portsClose.ft = s.ft := State.atPorts_ft ..

end

/-! ## The current frame and its runs -/

theorem Tracker.owns_eq_none {t : Tracker} {f : Word} :
    t.owns f = none ↔ ∀ o, t.frame = some o → o.number ≠ f := by
  simp [Tracker.owns, Option.filter_eq_none_iff]

theorem Tracker.owns_eq_some {t : Tracker} {f : Word} {o : OpenFrame} :
    t.owns f = some o ↔ t.frame = some o ∧ o.number = f := by
  simp [Tracker.owns, Option.filter_eq_some_iff]

@[simp] theorem Tracker.owns_packet (now : Nat) (t : Tracker) (f : Word) : (t.packet now).owns f = t.owns f := by
  simp [Tracker.owns, Tracker.packet_frame]

theorem runRangeFails_iff {o : OpenFrame} {y x0 n : Nat} :
    runRangeFails o y x0 n = true ↔ n < 1 ∨ 512 < n ∨ o.height ≤ y ∨ o.width < x0 + n := by
  simp only [runRangeFails, Bool.or_eq_true, Bool.not_eq_true', Bool.and_eq_false_iff, decide_eq_true_eq,
    decide_eq_false_iff_not, Nat.not_le, or_assoc]
  rfl

theorem Tracker.orderFails_iff {t : Tracker} {y x0 : Nat} :
    t.orderFails y x0 = true ↔ ∃ l, t.lastLine = some l ∧ (y < l ∨ (y = l ∧ x0 < t.lastEnd)) := by
  unfold Tracker.orderFails
  split
  case h_1 l present => simp [present]
  case h_2 absent => simp [absent]

/-- What every LINE of the current frame does before its checks (R49): the line-gap timer restarts, and the run counts.
Last line and last end stay, so that ORDER may be tested before it. -/
def Tracker.counted (now : Nat) (t : Tracker) : Tracker :=
  { t with lineGap := some (now + 25000), runs := min 65535 (t.runs + 1) }

section
variable {o : OpenFrame} {y x0 : Nat} {px : List PixelWord} {s : State}

theorem State.currentLine_of_range (range : runRangeFails o y x0 px.length = true) :
    s.currentLine o y x0 px =
      { s with ft := { s.ft.counted s.now with damage := { s.ft.damage with range := true } } } := by
  unfold State.currentLine
  rw [if_pos range]; rfl

theorem State.currentLine_of_order (range : ¬runRangeFails o y x0 px.length = true)
    (order : s.ft.orderFails y x0 = true) :
    s.currentLine o y x0 px =
      { s with ft := { s.ft.counted s.now with damage := { s.ft.damage with order := true } } } := by
  unfold State.currentLine
  rw [if_neg range]
  exact if_pos order

theorem State.currentLine_accepted (range : ¬runRangeFails o y x0 px.length = true)
    (order : ¬s.ft.orderFails y x0 = true) :
    s.currentLine o y x0 px =
      { ({ s with ft := s.ft.counted s.now } : State).engineRun y x0 px with
          ft := { s.ft.counted s.now with lastLine := some y, lastEnd := x0 + px.length } } := by
  unfold State.currentLine
  rw [if_neg range]
  refine (if_neg order).trans ?_
  simp only [State.engineRun_ft]; rfl

end

/-! ## LINE -/

section
variable {dt : Nat} {f y x0 : Word} {px : List PixelWord} {s : State}

theorem exec_line_received (heard : s.Receives dt) :
    exec (.line dt f y x0 px) s =
      .next (((s.elapse dt).forward (linePacket f y x0 px)).arrive.line f y.toNat x0.toNat px) :=
  (exec_line ..).trans (State.receive_heard heard _)

theorem State.line_other (other : s.ft.owns f = none) (y x0 : Nat) : s.line f y x0 px = s := by
  unfold State.line; rw [other]

theorem State.line_current {o : OpenFrame} (current : s.ft.owns f = some o) (y x0 : Nat) :
    s.line f y x0 px = s.currentLine o y x0 px := by
  unfold State.line; rw [current]

end

/-- Settles O25: the arrival of the packet keeps all of the Frame Tracker that the frame test and the two checks read,
so each outcome is that of `State.currentLine` in the state after the arrival. -/
theorem runsAreCheckedInOrder : Obligations.RunsAreCheckedInOrder := by
  intro dt f y x0 px s heard a n
  have owns : a.ft.owns f = s.ft.owns f := by simp [a]
  rw [exec_line_received heard]
  refine ⟨fun other => ?_, fun o present number => ?_⟩
  · rw [State.line_other (owns.trans (Tracker.owns_eq_none.mpr other))]
  intro counted range order
  have hcounted : counted = a.ft.counted a.now := by simp [counted, a, Tracker.counted]
  have hdamage : s.ft.damage = a.ft.damage := by simp [a]
  have hrange : range ↔ runRangeFails o y.toNat x0.toNat px.length = true := runRangeFails_iff.symm
  have horder : order ↔ a.ft.orderFails y.toNat x0.toNat = true := by
    rw [Tracker.orderFails_iff]; simp [order, a]
  rw [State.line_current (owns.trans (Tracker.owns_eq_some.mpr ⟨present, number⟩)), hcounted, hdamage,
    hrange, horder]
  exact ⟨fun out => congrArg _ (State.currentLine_of_range out),
    fun inside early => congrArg _ (State.currentLine_of_order inside early),
    fun inside late => congrArg _ (State.currentLine_accepted inside late)⟩

/-! ## What closes a frame -/

/-- The close of a frame changes neither the lock state nor the last number opened (R55). -/
theorem State.closeFrame_lock_lastNumber (more : Damage) (s : State) :
    (s.closeFrame more).ft.lock = s.ft.lock ∧ (s.closeFrame more).ft.lastNumber = s.ft.lastNumber := by
  unfold State.closeFrame
  split
  case h_1 => exact ⟨rfl, rfl⟩
  case h_2 =>
    dsimp only
    split <;> simp

theorem State.noticeLock_of_ne {s : State} {before : LockState} (changed : s.ft.lock ≠ before) :
    s.noticeLock before = s.raise (.lockChanged before s.ft.lock s.ft.lastNumber) := if_neg changed

section
variable {dt t0 : Nat} {f n : Word} {s : State}

theorem exec_frameEnd_received (heard : s.Receives dt) :
    exec (.frameEnd dt f n) s =
      .next (((s.elapse dt).forward (frameEndPacket f n)).arrive.frameEnd f n) :=
  (exec_frameEnd ..).trans (State.receive_heard heard _)

theorem State.frameEnd_other (other : s.ft.owns f = none) : s.frameEnd f n = s := by
  unfold State.frameEnd; rw [other]

theorem State.frameEnd_current {o : OpenFrame} (current : s.ft.owns f = some o) :
    s.frameEnd f n = s.closeFrame ⟨false, false, decide (n.toNat ≠ s.ft.runs), false⟩ := by
  have lost : (n.toNat != s.ft.runs) = decide (n.toNat ≠ s.ft.runs) := Bool.eq_iff_iff.mpr (by simp)
  unfold State.frameEnd; rw [current, ← lost]; rfl

theorem exec_lineGapTimerExpiry_running (released : s.held = false) (running : s.ft.lineGap = some t0) :
    exec (.lineGapTimerExpiry dt) s =
      .next (({ (s.elapse dt).reach t0 with ft := { s.ft with lineGap := none } } : State).closeFrame
        Damage.ofTruncated) := by
  rw [exec_lineGapTimerExpiry, execLineGapTimerExpiry, State.take_released released, State.elapse_ft, running]; rfl

theorem exec_signalTimerExpiry_running (released : s.held = false) (running : s.ft.signal = some t0) :
    exec (.signalTimerExpiry dt) s =
      .next ((({ (s.elapse dt).reach t0 with ft := { s.ft.enter .noSignal with signal := none } } : State).closeFrame
        Damage.ofTruncated).noticeLock s.ft.lock) := by
  rw [exec_signalTimerExpiry, execSignalTimerExpiry, State.take_released released, State.elapse_ft, running]; rfl

end

/-- Settles O29: the two timers close in the state with the timer stopped, and the change to NO-SIGNAL is read off after
the close, which keeps the lock state. -/
theorem framesEndByCountGapOrSignal : Obligations.FramesEndByCountGapOrSignal := by
  intro dt f n s released received a late
  have owns : a.ft.owns f = s.ft.owns f := by simp [a]
  have runs : a.ft.runs = s.ft.runs := by simp [a]
  refine ⟨?other, ?current, ?lineGap, ?signal⟩
  case other =>
    intro heard other
    rw [exec_frameEnd_received ⟨released, heard⟩, State.frameEnd_other (owns.trans (Tracker.owns_eq_none.mpr other))]
  case current =>
    intro o heard present number
    rw [exec_frameEnd_received ⟨released, heard⟩,
      State.frameEnd_current (owns.trans (Tracker.owns_eq_some.mpr ⟨present, number⟩)), runs]
  case lineGap =>
    intro t0 running
    exact exec_lineGapTimerExpiry_running released running
  case signal =>
    intro t0 running locked ft
    obtain ⟨lock, lastNumber⟩ :=
      State.closeFrame_lock_lastNumber Damage.ofTruncated ({ late t0 with ft := ft } : State)
    have changed : (({ late t0 with ft := ft } : State).closeFrame Damage.ofTruncated).ft.lock ≠ s.ft.lock :=
      fun same => locked (same.symm.trans lock)
    refine (exec_signalTimerExpiry_running released running).trans (congrArg _ ?_)
    refine (State.noticeLock_of_ne changed).trans ?_
    rw [lock, lastNumber]; rfl

end Sys2Proof.Machine
end

section
/-!
PROOFS. The requests of the session family: KEEP renews the lease of its session (R162).
-/

namespace Sys2Proof.Machine

/-! ## Operands and leases -/

theorem noOperands_eq_none {ops : List Byte} (extra : ops ≠ []) : noOperands ops = none := by
  cases ops with
  | nil => exact absurd rfl extra
  | cons b bs => rfl

/-- The lease time is kept in microseconds and reported in milliseconds (R163). -/
theorem leaseLength_div_thousand (lease : Nat) : leaseLength lease / 1000 = 10 * 2 ^ lease := by
  rw [leaseLength, Config.leaseUnit]
  omega

theorem State.leaseCode_of_session {i : Fin 4} {d : Session} {s : State} (present : s.sessions[i] = some d) :
    s.leaseCode i = d.lease := by
  simp [State.leaseCode, present]

/-! ## A request that needs a session, sent without one -/

/-- A kind that may not be sent sessionless is refused before its body (R153 step 5, R156). -/
theorem request_sessionless_refused {dt : Nat} {c : Ctl} {s : State} {rq : Fin 8} (h : Sessionless dt c s rq)
    (kind : ReqKind) (needs : maySessionless kind = false) (body : Body) :
    request kind body dt c s =
      .next ((s.received dt (reqCode kind) c rq).answered (reqCode kind) c rq .noSession []) := by
  rw [request, State.receive_heard h.addressed.released, State.request, control_addressed h.addressed]
  have started : ¬((s.received dt (reqCode kind) c rq).phase = .starting ∧ kind ≠ .readStatus) := by
    simp [State.received_phase, h.running]
  rw [State.tested, if_neg started, if_pos h.keyless, needs]
  rfl

/-! ## KEEP -/

theorem exec_keep (dt : Nat) (c : Ctl) (s : State) : exec (.keep dt c) s = request .keep keepBody dt c s := rfl

section
variable {i : Fin 4} {key : Byte} {slot : Option (Fin 8)} {ops : List Byte} {s : State}

theorem keepBody_plain {d : Session} (present : s.sessions[i] = some d) (plain : ops = []) :
    keepBody ⟨.session i key, slot, ops⟩ s =
      (s, .answer .ok (byteOf d.lease :: bytes3 (10 * 2 ^ d.lease))) := by
  subst plain
  rw [← leaseLength_div_thousand, ← State.leaseCode_of_session present]
  rfl

theorem keepBody_operands (extra : ops ≠ []) :
    keepBody ⟨.session i key, slot, ops⟩ s = (s, .answer .badOperand []) := by
  simp only [keepBody, forSession, noOperands_eq_none extra, refuse]

end

/-- Settles O36: in a session KEEP's body leaves the state as it is, so that the answer and the lease restarted for
every executed request are all that changes; without one the request does not reach its body. -/
theorem keepRenewsTheLease : Obligations.KeepRenewsTheLease := by
  intro dt c rq s
  refine ⟨fun i d turn => ⟨fun plain => ?ok, fun extra => ?badOperand⟩, fun anonymous => ?noSession⟩
  case ok =>
    refine answeredInSession_same keepBody turn (exec_keep ..) (fun t tested => ?_) (fun _ => rfl)
    have present : t.sessions[i] = some d := by
      rw [tested.sessions]; exact (State.findSession_some turn.found).1
    exact keepBody_plain present plain
  case badOperand =>
    exact answeredInSession_same keepBody turn (exec_keep ..) (fun _ _ => keepBody_operands extra) (fun _ => rfl)
  case noSession =>
    exact request_sessionless_refused anonymous .keep rfl keepBody

end Sys2Proof.Machine
end

section
/-!
PROOFS. The notice slots: what a raise does to its kind's slot (R181, R186), and SET-NOTICE-CLASS (R182).
-/

namespace Sys2Proof.Machine

/-! ## Raising: one equation for each state of the slot

Each hypothesis leaves one of the cases of `Notices.raise_cases`. The slot is kept in the spelling of that lemma, without
`Fin.getElem_fin`, so that the hypotheses on it apply.
-/

/-- The pending list without a kind, in the spelling of the statements. -/
theorem NoticeKind.filter_bne (k : NoticeKind) (l : List NoticeKind) :
    l.filter (· != k) = l.filter fun x => decide (x ≠ k) :=
  List.filter_congr fun x _ => (Bool.eq_iff_iff.mpr (by simp) : (x != k) = decide (x ≠ k))

section
variable {d : Detail} {n : Notices} {p : Pending}

theorem Notices.raise_of_empty_off (empty : n.slots[d.kind.idx].body = none)
    (off : n.slots[d.kind.idx].cls = 3) : n.raise d = n := by
  simpa [-Fin.getElem_fin, empty, off] using n.raise_cases d

theorem Notices.raise_of_empty (empty : n.slots[d.kind.idx].body = none) (on : n.slots[d.kind.idx].cls ≠ 3) :
    n.raise d =
      ⟨upd n.slots d.kind.idx ⟨n.slots[d.kind.idx].cls, some ⟨1, d, d, false, none⟩⟩, n.list ++ [d.kind]⟩ := by
  simpa [-Fin.getElem_fin, empty, on] using n.raise_cases d

theorem Notices.raise_of_pending (pending : n.slots[d.kind.idx].body = some p) (still : p.sending = false) :
    n.raise d =
      ⟨upd n.slots d.kind.idx
        ⟨n.slots[d.kind.idx].cls, some { p with count := min 255 (p.count + 1), latest := d }⟩, n.list⟩ := by
  simpa [-Fin.getElem_fin, pending, still, bump255] using n.raise_cases d

theorem Notices.raise_of_sending (pending : n.slots[d.kind.idx].body = some p) (sending : p.sending = true)
    (uncarried : p.carry = none) :
    n.raise d =
      ⟨upd n.slots d.kind.idx ⟨n.slots[d.kind.idx].cls, some { p with carry := some ⟨1, d, d⟩ }⟩,
        (n.list.filter fun x => decide (x ≠ d.kind)) ++ [d.kind]⟩ := by
  simpa [-Fin.getElem_fin, pending, sending, uncarried, NoticeKind.filter_bne] using n.raise_cases d

theorem Notices.raise_of_carry {y : Carry} (pending : n.slots[d.kind.idx].body = some p)
    (sending : p.sending = true) (carried : p.carry = some y) :
    n.raise d =
      ⟨upd n.slots d.kind.idx
        ⟨n.slots[d.kind.idx].cls, some { p with carry := some ⟨min 255 (y.count + 1), y.first, d⟩ }⟩, n.list⟩ := by
  simpa [-Fin.getElem_fin, pending, sending, carried, bump255] using n.raise_cases d

/-- A raise changes the notice slots alone. -/
theorem State.raise_eq_of_ns {s : State} {m : Notices} (h : s.ns.raise d = m) : s.raise d = { s with ns := m } :=
  congrArg (fun m => { s with ns := m }) h

end

/-! ## SET-NOTICE-CLASS -/

theorem noticeClassOperands_bytes (k : NoticeKind) (cls : Fin 4) :
    noticeClassOperands [byteOf k.idx.1, byteOf cls.1] = some (k, cls) := by
  simp only [noticeClassOperands, noticeKind_code, fin?_val cls (by decide : 4 ≤ 256)]

theorem Notices.setClass_off (k : NoticeKind) (n : Notices) :
    n.setClass k 3 = ⟨upd n.slots k.idx ⟨3, none⟩, n.list.filter fun x => decide (x ≠ k)⟩ := by
  rw [← NoticeKind.filter_bne]; rfl

theorem Notices.setClass_on {k : NoticeKind} {cls : Fin 4} (on : cls ≠ 3) (n : Notices) :
    n.setClass k cls = ⟨upd n.slots k.idx ⟨cls, n.slots[k.idx].body⟩, n.list⟩ := if_neg on

theorem setNoticeClassBody_session {i : Fin 4} {key : Byte} {slot : Option (Fin 8)} {ops : List Byte}
    {k : NoticeKind} {cls : Fin 4} (hops : ops = [byteOf k.idx.1, byteOf cls.1]) (s : State) :
    setNoticeClassBody ⟨.session i key, slot, ops⟩ s =
      ({ s with ns := s.ns.setClass k cls }, .answer .ok [byteOf s.ns.slots[k.idx].cls.1]) := by
  simp only [setNoticeClassBody, forSession, hops, noticeClassOperands_bytes]

theorem exec_setNoticeClass (dt : Nat) (c : Ctl) (s : State) :
    exec (.setNoticeClass dt c) s = request .setNoticeClass setNoticeClassBody dt c s := rfl

/-- Settles O49: the raise by the state of its slot; the class request by its body, which finds the class that stood
before the packet, since an arrival changes no class. -/
theorem noticeSlotsGatherRaises : Obligations.NoticeSlotsGatherRaises := by
  refine ⟨fun d s => ⟨?off, ?fresh, ?adds, ?begins, ?grows⟩, ?request⟩
  case off => exact fun empty off => State.raise_eq_of_ns (Notices.raise_of_empty_off empty off)
  case fresh => exact fun empty on => State.raise_eq_of_ns (Notices.raise_of_empty empty on)
  case adds => exact fun p pending still => State.raise_eq_of_ns (Notices.raise_of_pending pending still)
  case begins =>
    exact fun p pending sending uncarried => State.raise_eq_of_ns (Notices.raise_of_sending pending sending uncarried)
  case grows =>
    exact fun p y pending sending carried => State.raise_eq_of_ns (Notices.raise_of_carry pending sending carried)
  case request =>
    intro dt c rq i d k cls s turn ops
    refine answeredInSession_same setNoticeClassBody turn (exec_setNoticeClass ..) (fun t tested => ?body)
      (fun t => ?sessions)
    case sessions => split <;> rfl
    case body =>
      rw [setNoticeClassBody_session ops, tested.classes k]
      by_cases off : cls = 3
      · subst off
        rw [if_pos rfl, Notices.setClass_off]
      · rw [if_neg off, Notices.setClass_on off]

end Sys2Proof.Machine
end

section
/-!
PROOFS. What a step can do, said once. `Change` lists the elementary changes that the commands make to the blocks the
invariants speak of, each with the condition under which it is made; `exec_changes` says that every command is a sequence
of them. An invariant that each elementary change keeps is then kept by every step.
-/

namespace Sys2Proof.Machine

/-! ## The elementary changes -/

/-- The blocks that the invariants speak of are the same in both states. -/
structure SameBlocks (s t : State) : Prop where
  phase    : t.phase = s.phase
  sessions : t.sessions = s.sessions
  rq       : t.rq = s.rq
  ns       : t.ns = s.ns
  ms       : t.ms = s.ms
  cu       : t.cu = s.cu
  rs       : t.rs = s.rs
  ports    : t.ports = s.ports
  buffer   : t.dn.buffer = s.dn.buffer

/-- A port's queue is within its size, and a transfer in progress has its line (R90). -/
structure PortOk (p : Port) : Prop where
  size : p.queue.length ≤ 8
  line : p.transferring = true → p.queue ≠ []

/-- Both banks have their canonical form (R106). -/
structure BanksOk (r : RecordStore) : Prop where
  bankA : Memory.wf erased r.bankA = true
  bankB : Memory.wf erased r.bankB = true

/-- All curves, those of the staging area too, are in form (R68). -/
structure CurvesOk (c : CorrectionUnit) : Prop where
  tables  : ∀ t : Fin 8, curvesOk c.tables[t]
  staging : stagingOk c.staging

/-- The blocks have the values of a reset, with the pins and the banks left open (R198). -/
structure AtReset (t : State) : Prop where
  phase    : t.phase = .starting
  sessions : t.sessions = Vector.replicate 4 none
  rq       : t.rq = ResponseQueue.initial
  ns       : t.ns = Notices.initial
  ms       : t.ms = MapStore.initial
  cu       : t.cu = CorrectionUnit.initial
  ports    : ∀ i : Fin 8, ∃ ready, t.ports[i] = Port.initial ready
  buffer   : t.dn.buffer = []

/-- One elementary change. -/
inductive Change (s : State) : State → Prop
  /-- Everything outside the blocks may change. -/
  | quiet {t : State} (same : SameBlocks s t) : Change s t
  | raise (d : Detail) : Change s (s.raise d)
  | reserve {i : Fin 8} (free : s.rq.freeSlot = some i) (key seq code : Byte) :
      Change s { s with rq := s.rq.reserve i key seq code }
  | fill (i : Fin 8) (r : Response) : Change s { s with rq := s.rq.fill i r }
  | release (i : Fin 8) : Change s { s with rq := s.rq.release i }
  | setClass (k : NoticeKind) (c : Fin 4) : Change s { s with ns := s.ns.setClass k c }
  | beginNotice (k : NoticeKind) : Change s { s with ns := s.ns.beginSend k }
  | endNotice (k : NoticeKind) : Change s { s with ns := s.ns.endSend k }
  /-- An open session keeps its key. -/
  | session {i : Fin 4} {d d' : Session} (present : s.sessions[i] = some d) (key : d'.key = d.key) :
      Change s { s with sessions := upd s.sessions i (some d') }
  /-- A session opens under a new key (R158). -/
  | openSession {i : Fin 4} {d : Session} (nonzero : d.key ≠ 0)
      (fresh : ∀ j : Fin 4, ∀ e, s.sessions[j] = some e → e.key ≠ d.key) (free : s.sessions[i] = none) :
      Change s { s with sessions := upd s.sessions i (some d) }
  /-- A session ends, and what it owns is released (R161, R164). -/
  | closeSession {i : Fin 4} {d : Session} (present : s.sessions[i] = some d) :
      Change s { s with ms := s.ms.withoutEditOf d.key, cu := s.cu.withoutStagingOf d.key,
                        sessions := upd s.sessions i none }
  /-- The edit buffer is taken (R21). -/
  | openEdit {key : Byte} {c : Fin 4} (copy : Bool) (running : s.phase = .running) (free : s.ms.edit = none)
      (unused : s.ms.inUse c = false) (owner : s.opened key) : Change s { s with ms := s.ms.openEdit key c copy }
  /-- The edit buffer's content changes. -/
  | putEdit {e e' : EditBuffer} (present : s.ms.edit = some e) (owner : e'.owner = e.owner)
      (target : e'.target = e.target) : Change s (s.putEdit e')
  | closeEdit {e : EditBuffer} (present : s.ms.edit = some e) : Change s { s with ms := s.ms.closeEdit e }
  | releaseEdit : Change s { s with ms := s.ms.releaseEdit }
  /-- What is shown or waits to be shown changes to READY contexts; contexts and buffer stay. -/
  | reveal {m : MapStore} (contexts : m.contexts = s.ms.contexts) (edit : m.edit = s.ms.edit)
      (ready : ∀ c : Fin 4, m.inUse c = true → s.ms.inUse c = true ∨ s.ms.contexts[c].status = .ready) :
      Change s { s with ms := m }
  /-- The start-up load makes a context READY (R131). -/
  | loadContext (loading : s.rs.load ≠ none) (c : Fin 4) (t : TileTable) (f : Rgb) :
      Change s { s with ms := { s.ms with contexts := upd s.ms.contexts c ⟨.ready, t, f⟩ } }
  /-- The Correction Unit changes to curves in form, and the staging area is taken by an open session at most. -/
  | correct {u : CorrectionUnit} (curves : CurvesOk s.cu → CurvesOk u)
      (owner : ∀ key t cv, u.staging = .owned key t cv → s.opened key ∨ ∃ t' cv', s.cu.staging = .owned key t' cv') :
      Change s { s with cu := u }
  /-- The Record Store changes; no start-up load begins. -/
  | store {r : RecordStore} (banks : BanksOk s.rs → BanksOk r) (load : r.load ≠ none → s.rs.load ≠ none) :
      Change s { s with rs := r }
  /-- The start-up load is reported complete (R190). -/
  | finishLoad : Change s { s with phase := .running, rs := { s.rs with load := none } }
  | ports {ps : Vector Port 8} (ok : ∀ i : Fin 8, PortOk s.ports[i] → PortOk ps[i]) : Change s { s with ports := ps }
  | downlink {d : Downlink} (ok : s.dn.buffer.length ≤ 4 → d.buffer.length ≤ 4) : Change s { s with dn := d }
  /-- A SOFT reset (R200). -/
  | softReset :
      Change s { s with rq := ResponseQueue.initial, ns := s.ns.emptied, sessions := Vector.replicate 4 none,
                        ms := s.ms.releaseEdit, cu := s.cu.releaseStaging }
  /-- A reset of the whole part (R198, R201). -/
  | restart {t : State} (blocks : AtReset t) (banks : BanksOk s.rs → BanksOk t.rs) : Change s t

/-- A sequence of elementary changes. -/
abbrev Changes : State → State → Prop := Relation.ReflTransGen fun s t => Change s t

theorem Change.then {s t u : State} (h : Change s t) (rest : Changes t u) : Changes s u := .head h rest

theorem Change.once {s t : State} (h : Change s t) : Changes s t := .single h

/-- The changes that come last, before those that come first: the state between is read off the last ones. -/
theorem Changes.after {s t u : State} (last : Changes t u) (first : Changes s t) : Changes s u := first.trans last

/-- A predicate that every elementary change keeps is kept by a sequence of them. -/
theorem Changes.keep {P : State → Prop} (keep : ∀ s t, Change s t → P s → P t) {s t : State} (h : Changes s t)
    (hs : P s) : P t := by
  induction h with
  | refl => exact hs
  | tail _ last ih => exact keep _ _ last ih

theorem Changes.foldl {α : Type} {f : State → α → State} (each : ∀ s a, Changes s (f s a)) (l : List α) (s : State) :
    Changes s (l.foldl f s) := by
  induction l generalizing s with
  | nil => exact .refl
  | cons a l ih => exact (each s a).trans (ih _)

/-! ## Time, packets and notices -/

theorem Changes.quiet {s t : State} (same : SameBlocks s t) : Changes s t := (Change.quiet same).once

theorem changes_elapse (dt : Nat) (s : State) : Changes s (s.elapse dt) :=
  Changes.quiet ⟨rfl, rfl, rfl, rfl, rfl, rfl, rfl, rfl, rfl⟩

theorem changes_reach (t : Nat) (s : State) : Changes s (s.reach t) :=
  Changes.quiet ⟨rfl, rfl, rfl, rfl, rfl, rfl, rfl, rfl, rfl⟩

theorem changes_forward (bytes : List Byte) (s : State) : Changes s (s.forward bytes) := by
  rw [State.forward_eq]; exact Changes.quiet ⟨rfl, rfl, rfl, rfl, rfl, rfl, rfl, rfl, rfl⟩

theorem changes_tracker (t : Tracker) (s : State) : Changes s { s with ft := t } :=
  Changes.quiet ⟨rfl, rfl, rfl, rfl, rfl, rfl, rfl, rfl, rfl⟩

theorem changes_engine (w : Option Work) (s : State) : Changes s { s with te := w } :=
  Changes.quiet ⟨rfl, rfl, rfl, rfl, rfl, rfl, rfl, rfl, rfl⟩

theorem changes_uplink (u : Uplink) (s : State) : Changes s { s with up := u } :=
  Changes.quiet ⟨rfl, rfl, rfl, rfl, rfl, rfl, rfl, rfl, rfl⟩

theorem changes_raise (d : Detail) (s : State) : Changes s (s.raise d) := (Change.raise d).once

theorem changes_raiseIf (o : Option Detail) (s : State) : Changes s (s.raiseIf o) := by
  cases o with
  | none => exact .refl
  | some d => exact changes_raise d s

theorem changes_noticeLock (before : LockState) (s : State) : Changes s (s.noticeLock before) := by
  unfold State.noticeLock
  split
  · exact .refl
  · exact changes_raise _ _

theorem changes_arrive (s : State) : Changes s s.arrive := (changes_tracker _ s).trans (changes_noticeLock _ _)

theorem changes_respond (code : Byte) (c : Ctl) (rq : Fin 8) (st : Status) (res : List Byte) (s : State) :
    Changes s (s.respond code c rq st res) := (Change.fill ..).once

/-- A session that stays open under its key, if it is open at all. -/
theorem changes_modSession {f : Session → Session} (key : ∀ d, (f d).key = d.key) (i : Fin 4) (s : State) :
    Changes s (s.modSession i f) := by
  unfold State.modSession
  cases present : s.sessions[i] with
  | none => rw [Option.map_none, ← present, upd_self]
  | some d => exact (Change.session present (key d)).once

/-! ## The tile ports -/

/-- The lines in transfer and those kept of the waiting ones are within the queue. -/
theorem Port.length_kept_le (p : Port) (keep : PortLine → Bool) :
    (p.inTransfer ++ p.waitingLines.filter keep).length ≤ p.queue.length := by
  have kept := List.length_filter_le keep p.waitingLines
  unfold Port.inTransfer Port.waitingLines at *
  split
  · simp_all; omega
  · simp_all

theorem Port.kept_ne_nil {p : Port} (ok : PortOk p) (keep : PortLine → Bool) (transfer : p.transferring = true) :
    p.inTransfer ++ p.waitingLines.filter keep ≠ [] := by
  simp [Port.inTransfer, transfer, ok.line transfer]

theorem Port.countDropped_queue (l : PortLine) (p : Port) :
    (p.countDropped l).queue = p.queue ∧ (p.countDropped l).transferring = p.transferring := by
  unfold Port.countDropped Port.tally
  repeat' split
  all_goals exact ⟨rfl, rfl⟩

theorem Port.countDelivered_queue (l : PortLine) (p : Port) :
    (p.countDelivered l).queue = p.queue ∧ (p.countDelivered l).transferring = p.transferring := by
  unfold Port.countDelivered Port.tally
  repeat' split
  all_goals exact ⟨rfl, rfl⟩

theorem Port.foldl_countDelivered_queue (ls : List PortLine) (p : Port) :
    (ls.foldl Port.countDelivered p).queue = p.queue ∧
      (ls.foldl Port.countDelivered p).transferring = p.transferring := by
  induction ls generalizing p with
  | nil => exact ⟨rfl, rfl⟩
  | cons l ls ih =>
    obtain ⟨queue, transferring⟩ := Port.countDelivered_queue l p
    simpa [queue, transferring] using ih (p.countDelivered l)

theorem Port.discard_queue (drop : PortLine → Bool) (p : Port) :
    (p.discard drop).queue = p.inTransfer ++ p.waitingLines.filter (fun l => !drop l) ∧
      (p.discard drop).transferring = p.transferring := by
  unfold Port.discard
  dsimp only
  rw [Port.foldl_countDropped]
  split <;> exact ⟨rfl, rfl⟩

namespace PortOk

variable {p q : Port}

/-- Only the queue and the transfer matter. -/
theorem of_eq (ok : PortOk p) (queue : q.queue = p.queue) (transferring : q.transferring = p.transferring) : PortOk q :=
  ⟨queue ▸ ok.size, fun h => queue ▸ ok.line (transferring ▸ h)⟩

theorem initial (ready : Bool) : PortOk (Port.initial ready) := ⟨by simp [Port.initial], by simp [Port.initial]⟩

theorem countDropped (ok : PortOk p) (l : PortLine) : PortOk (p.countDropped l) :=
  ok.of_eq (Port.countDropped_queue l p).1 (Port.countDropped_queue l p).2

theorem discard (ok : PortOk p) (drop : PortLine → Bool) : PortOk (p.discard drop) := by
  obtain ⟨queue, transferring⟩ := p.discard_queue drop
  constructor
  · rw [queue]; exact (p.length_kept_le _).trans ok.size
  · rw [queue, transferring]; exact Port.kept_ne_nil ok _

theorem keepStall (ok : PortOk p) (now : Nat) : PortOk (p.keepStall now) := by
  unfold Port.keepStall
  repeat' split
  all_goals exact ok.of_eq rfl rfl

/-- A transfer starts with the line at the head of the queue. -/
theorem settle (ok : PortOk p) (now : Nat) : PortOk (p.settle now) := by
  unfold Port.settle
  split
  case h_1 l starts =>
    have head : p.queue ≠ [] := by
      intro empty
      simp [Port.starting, empty] at starts
    exact keepStall (p := { p with transferring := true }) ⟨ok.size, fun _ => head⟩ now
  case h_2 => exact ok.keepStall now

theorem hand (ok : PortOk p) (l : PortLine) : PortOk (p.hand l).1 := by
  unfold Port.hand
  split
  · exact ok.countDropped l
  · split
    case isTrue => exact ok.countDropped l
    case isFalse room =>
      have room : ¬8 ≤ p.queue.length := room
      exact ⟨by simp; omega, by simp⟩

theorem complete (ok : PortOk p) : PortOk p.complete := by
  unfold Port.complete
  split
  case h_1 l rest queue =>
    have size := ok.size
    rw [queue] at size
    obtain ⟨queue', transferring⟩ := Port.countDelivered_queue l { p with queue := rest, transferring := false }
    constructor
    · rw [queue']; simp at size; show rest.length ≤ 8; omega
    · simp [transferring]
  case h_2 => exact ⟨ok.size, by simp⟩

theorem retire (ok : PortOk p) (f : Word) : PortOk (p.retire f) := by
  unfold Port.retire
  obtain ⟨queue, transferring⟩ :=
    Port.foldl_countDelivered_queue ((p.discard isLast).inTransfer.filter isLast) (p.discard isLast)
  constructor
  · simpa [queue] using (ok.discard isLast).size
  · simpa [queue, transferring] using (ok.discard isLast).line

theorem endGenerated (ok : PortOk p) (policy : Bool) : PortOk (p.endGenerated policy) := by
  unfold Port.endGenerated
  refine PortOk.discard ?_ _
  repeat' split
  all_goals exact ok.of_eq rfl rfl

theorem opened (ok : PortOk p) (f : Word) : PortOk (p.open f) := (ok.retire f).endGenerated true

theorem configure (ok : PortOk p) (enabled : Bool) (loss : LossPolicy) (pattern : Pattern) :
    PortOk (p.configure enabled loss pattern) := by
  unfold Port.configure
  dsimp only
  split
  · unfold Port.disable
    refine of_eq (discard (p := { p with config := _, gen := none }) (ok.of_eq rfl rfl) fun _ => true) rfl rfl
  · exact ok.of_eq rfl rfl

theorem force (ok : PortOk p) (frameOpen : Bool) (kind : Option Pattern) : PortOk (p.force frameOpen kind) := by
  unfold Port.force
  split
  · exact ok
  · exact (ok.endGenerated p.config.forced.isNone).of_eq rfl rfl

theorem place (ok : PortOk p) : PortOk p.place := by
  unfold Port.place
  repeat' split
  case _ => exact ok
  case _ => exact ok.of_eq rfl rfl
  case isTrue room =>
    have room : p.queue.length < 8 := room
    exact ⟨by simp; omega, by simp⟩
  case isFalse => exact ok

end PortOk

theorem changes_setPort {i : Fin 8} {p : Port} {s : State} (ok : PortOk s.ports[i] → PortOk p) :
    Changes s (s.setPort i p) := by
  refine .trans (Change.ports (ps := upd s.ports i (p.settle s.now)) fun j hj => ?_).once (Changes.quiet ⟨rfl, rfl, rfl, rfl, rfl, rfl, rfl, rfl, rfl⟩)
  rw [upd_apply]
  split
  case isTrue same => subst same; exact (ok hj).settle s.now
  case isFalse => exact hj

theorem changes_atPort (i : Fin 8) {f : Port → Port} (ok : ∀ {p}, PortOk p → PortOk (f p)) (s : State) :
    Changes s (s.atPort i f) := changes_setPort fun h => ok h

theorem changes_atPorts {f : Port → Port} (ok : ∀ {p}, PortOk p → PortOk (f p)) (s : State) :
    Changes s (s.atPorts f) := Changes.foldl (fun s i => changes_atPort i ok s) _ s

theorem changes_handLine (i : Fin 8) (f : Word) (l : PortLine) (s : State) : Changes s (s.handLine i f l) := by
  have handed : PortOk s.ports[i] → PortOk (s.ports[i].hand l).1 := fun ok => ok.hand l
  unfold State.handLine
  dsimp only
  split
  · exact (changes_raise _ s).trans (changes_setPort handed)
  · exact changes_setPort handed

/-! ## Frames -/

/-- The first step of a close: COMPLETE or DAMAGED, with its notice (R55). -/
def State.judged (o : OpenFrame) (d : Damage) (s : State) : State :=
  if d.isEmpty then { s with ft := { s.ft with damage := d, lastClose := some .complete } }
  else
    { s with ft := { s.ft with damage := d, lastClose := some .damaged,
                               damagedCount := s.ft.damagedCount + 1 } }.raise (.frameDamaged o.number d)

theorem State.closeFrame_blanking {s : State} (blanking : s.ft.frame = none) (more : Damage) :
    s.closeFrame more = s := by
  unfold State.closeFrame; rw [blanking]

theorem State.closeFrame_open {s : State} {o : OpenFrame} (present : s.ft.frame = some o) (more : Damage) :
    s.closeFrame more =
      { ((s.judged o (s.ft.damage.union more)).engineClose (s.ft.damage.union more).truncated).portsClose with
          ft := { (s.judged o (s.ft.damage.union more)).ft with frame := none, lineGap := none } } := by
  unfold State.closeFrame
  rw [present]
  dsimp only
  rw [State.portsClose_ft, State.engineClose_ft, State.judged]

theorem changes_judged (o : OpenFrame) (d : Damage) (s : State) : Changes s (s.judged o d) := by
  unfold State.judged
  split
  · exact changes_tracker ..
  · exact (changes_tracker _ s).trans (changes_raise ..)

theorem changes_completeLine (m : FrameMap) (rows : List RowProgress) (y : Nat) (s : State) :
    Changes s (s.completeLine m rows y) := by
  refine Changes.foldl (fun s p => ?_) _ s
  unfold State.handPort
  split
  · exact changes_handLine ..
  · exact .refl

theorem changes_completeLines (m : FrameMap) (n : Nat) (rows : List RowProgress) (y : Nat) (s : State) :
    Changes s (s.completeLines m n rows y) := by
  induction n generalizing rows y s with
  | zero => exact .refl
  | succ n ih => exact (changes_completeLine m rows y s).trans (ih ..)

theorem changes_engineRun (y x0 : Nat) (px : List PixelWord) (s : State) : Changes s (s.engineRun y x0 px) := by
  unfold State.engineRun
  split
  · exact .refl
  · exact (changes_completeLines ..).trans (changes_engine ..)

theorem changes_engineClose (truncated : Bool) (s : State) : Changes s (s.engineClose truncated) := by
  unfold State.engineClose
  split
  · exact .refl
  · exact (changes_completeLines ..).trans (changes_engine ..)

theorem changes_portsClose (s : State) : Changes s s.portsClose := 
  changes_atPorts (f := fun p => { p with releasePending := false }) (fun ok => ok.of_eq rfl rfl) s

theorem changes_closeFrame (more : Damage) (s : State) : Changes s (s.closeFrame more) := by
  cases present : s.ft.frame with
  | none => rw [State.closeFrame_blanking present]
  | some o =>
    rw [State.closeFrame_open present]
    exact (((changes_judged ..).trans (changes_engineClose ..)).trans (changes_portsClose _)).trans (changes_tracker ..)

theorem Selection.names_advance (sel : Selection) (c : Fin 4) : sel.advance.names c = sel.names c := by
  cases sel with
  | sequence es i r => unfold Selection.advance; dsimp only; split <;> rfl
  | none | context d => rfl

theorem Target.names_selection (t : Target) (c : Fin 4) : t.selection.names c = t.names c := by cases t <;> rfl

/-- An open shows nothing that was not shown or waiting before (R36 to R40). -/
theorem MapStore.inUse_of_applied {m : MapStore} {f : Word} {c : Fin 4} (used : (m.applied f).inUse c = true) :
    m.inUse c = true := by
  cases due : m.switchDue f with
  | some w =>
    obtain ⟨-, present, -⟩ := MapStore.switchDue_eq_some.mp due
    simp_all [MapStore.applied, MapStore.inUse, Target.names_selection]
  | none => simpa [MapStore.applied, due, MapStore.inUse, Selection.names_advance] using used

theorem MapStore.applied_contexts_edit (m : MapStore) (f : Word) :
    (m.applied f).contexts = m.contexts ∧ (m.applied f).edit = m.edit := by
  unfold MapStore.applied
  dsimp only
  split <;> exact ⟨rfl, rfl⟩

/-- An installation moves the staging curves into a table and owns nothing. -/
theorem CorrectionUnit.install_ok (t : Fin 8) {c : CorrectionUnit} (ok : CurvesOk c) : CurvesOk (c.install t) := by
  unfold CorrectionUnit.install
  split
  case h_1 u curves held =>
    have staged : curvesOk curves := by have := ok.staging; rwa [held] at this
    refine ⟨fun i => ?_, trivial⟩
    show curvesOk (upd c.tables t curves)[i]
    rw [upd_apply]
    split
    · exact staged
    · exact ok.tables i
  all_goals exact ok

theorem CorrectionUnit.install_owned {t : Fin 8} {c : CorrectionUnit} {key : Byte} {u : Fin 8} {cv : Curves}
    (owned : (c.install t).staging = .owned key u cv) : c.staging = .owned key u cv := by
  unfold CorrectionUnit.install at owned
  split at owned
  · cases owned
  all_goals exact owned

theorem changes_applyPending (f : Word) (s : State) : Changes s (s.applyPending f) := by
  obtain ⟨contexts, edit⟩ := s.ms.applied_contexts_edit f
  refine .trans ?_ (changes_raiseIf _ _)
  refine (Change.reveal contexts edit fun c used => .inl (MapStore.inUse_of_applied used)).then ?_
  cases s.ms.installDue with
  | none => exact Changes.quiet ⟨rfl, rfl, rfl, rfl, rfl, rfl, rfl, rfl, rfl⟩
  | some t =>
    exact (Change.correct (CorrectionUnit.install_ok t)
      fun key u cv owned => .inr ⟨u, cv, CorrectionUnit.install_owned owned⟩).once

theorem changes_engineOpen (f : Word) (w h : Nat) (s : State) : Changes s (s.engineOpen f w h) :=
  (changes_engine _ s).trans (changes_raiseIf ..)

theorem changes_frameStart (f : Word) (w h : Nat) (s : State) : Changes s (s.frameStart f w h) := by
  unfold State.frameStart
  split
  · refine .trans ?_ (changes_noticeLock ..)
    refine .trans ?_ (changes_atPorts (fun ok => ok.opened f) _)
    refine .trans ?_ (changes_engineOpen ..)
    refine .trans ?_ (changes_applyPending ..)
    exact ((changes_tracker _ s).trans (changes_closeFrame ..)).trans (changes_tracker ..)
  · exact (((changes_arrive s).trans (changes_closeFrame ..)).trans (changes_tracker ..)).trans (changes_raise ..)

theorem changes_line (f : Word) (y x0 : Nat) (px : List PixelWord) (s : State) : Changes s (s.line f y x0 px) := by
  unfold State.line
  split
  case h_2 => exact .refl
  case h_1 o _ =>
    unfold State.currentLine
    dsimp only
    repeat' split
    · exact changes_tracker ..
    · exact changes_tracker ..
    · exact ((changes_tracker _ s).trans (changes_engineRun ..)).trans (changes_tracker ..)

theorem changes_frameEnd (f n : Word) (s : State) : Changes s (s.frameEnd f n) := by
  unfold State.frameEnd
  split
  · exact changes_closeFrame ..
  · exact .refl

end Sys2Proof.Machine
end

section
/-!
PROOFS. Every command is a sequence of elementary changes (continued): requests, the record store, the start-up load, the
return lane, and the table of all commands.
-/

namespace Sys2Proof.Machine

/-- A command answers a next state, reached by elementary changes. -/
def Makes (s : State) (o : Host.Outcome State Fault Refusal) : Prop := ∃ t, o = .next t ∧ Changes s t

theorem makes_next {s t : State} (h : Changes s t) : Makes s (.next t) := ⟨t, rfl, h⟩

theorem makes_take {f : State → State} (h : ∀ t, Changes t (f t)) (dt : Nat) (s : State) : Makes s (s.take dt f) := by
  refine makes_next ?_
  split
  · exact changes_elapse dt s
  · exact (changes_elapse dt s).trans (h _)

theorem makes_receive {f : State → State} (h : ∀ t, Changes t (f t)) (dt : Nat) (s : State) :
    Makes s (s.receive dt f) := by
  refine makes_next ?_
  split
  · exact (changes_elapse dt s).trans (h _)
  · exact changes_elapse dt s

theorem makes_completeReception {f : State → State} (h : ∀ t, Changes t (f t)) (dt : Nat) (s : State) :
    Makes s (s.completeReception dt f) :=
  makes_receive (fun t => by split; exacts [h t, .refl]) dt s

/-! ## Requests -/

/-- The session a call comes from is open under its key. -/
def Call.Holds (k : Call) (s : State) : Prop :=
  ∀ i key, k.caller = .session i key → ∃ d, s.sessions[i] = some d ∧ d.key = key

/-- A body, called as `State.request` calls it, makes elementary changes. -/
def BodyChanges (kind : ReqKind) (body : Body) : Prop :=
  ∀ k s, k.Holds s → (s.phase = .starting → kind = .readStatus) → Changes s (body k s).1

theorem changes_resend (code : Byte) (c : Ctl) (rq : Fin 8) (i : Fin 4) (cache : Cached) (s : State) :
    Changes s (s.resend code c rq i cache) :=
  (changes_respond ..).trans (changes_modSession (by exact fun _ => rfl) i _)

theorem changes_conclude {kind : ReqKind} {c : Ctl} {rq : Fin 8} {i : Fin 4} {held : Nat} {r : State × Reply} {s : State}
    (h : Changes s r.1) : Changes s (State.conclude kind c rq i held r) := by
  unfold State.conclude
  split
  · exact (h.trans (changes_respond ..)).trans (changes_modSession (by exact fun _ => rfl) i _)
  · exact h.trans (changes_respond ..)
  · exact h.trans (changes_modSession (by exact fun _ => rfl) i _)

theorem changes_unsequenced {kind : ReqKind} {c : Ctl} {rq : Fin 8} {r : State × Reply} {s : State}
    (h : Changes s r.1) : Changes s (State.unsequenced kind c rq r) := by
  unfold State.unsequenced
  split
  · exact h.trans (changes_respond ..)
  · exact h.trans (changes_respond ..)
  · exact h

theorem changes_sequenced {kind : ReqKind} {body : Body} (hb : BodyChanges kind body) (c : Ctl) (rq : Fin 8) {s : State}
    (phase : s.phase = .starting → kind = .readStatus) : Changes s (s.sequenced kind body c rq) := by
  unfold State.sequenced
  split
  case h_1 => exact changes_respond ..
  case h_2 i d found =>
    have holds : Call.Holds ⟨.session i c.key, some rq, c.ops⟩ s := by
      intro j key caller
      obtain ⟨rfl, rfl⟩ := by simpa using caller
      exact ⟨d, State.findSession_some found⟩
    split
    · split
      · exact changes_resend ..
      · split
        · exact changes_conclude (hb _ s holds phase)
        · exact changes_respond ..
    · repeat' split
      all_goals exact changes_respond ..

theorem changes_tested {kind : ReqKind} {body : Body} (hb : BodyChanges kind body) (c : Ctl) (rq : Fin 8) (s : State) :
    Changes s (s.tested kind body c rq) := by
  unfold State.tested
  split
  case isTrue => exact changes_respond ..
  case isFalse started =>
    have phase : s.phase = .starting → kind = .readStatus := by simpa using started
    split
    · split
      · exact changes_unsequenced (hb _ s (by intro i key caller; cases caller) phase)
      · exact changes_respond ..
    · exact changes_sequenced hb c rq phase

theorem changes_broadcast {kind : ReqKind} {body : Body} (hb : BodyChanges kind body) (c : Ctl) (s : State) :
    Changes s (s.broadcast kind body c) := by
  unfold State.broadcast
  split
  case isTrue conditions =>
    obtain ⟨-, running, -⟩ := conditions
    exact hb _ s (by intro i key caller; cases caller) (by simp [running])
  case isFalse => exact .refl

theorem changes_addressed {handle : Fin 8 → State → State} (h : ∀ rq t, Changes t (handle rq t)) (code : Byte) (c : Ctl)
    (s : State) : Changes s (s.addressed code c handle) := by
  unfold State.addressed
  split
  case isTrue => exact .refl
  case isFalse =>
    split
    case h_1 => exact .refl
    case h_2 rq free => exact (Change.reserve free ..).then (h rq _)

theorem changes_control {onBroadcast : State → State} {handle : Fin 8 → State → State}
    (hb : ∀ t, Changes t (onBroadcast t)) (ha : ∀ rq t, Changes t (handle rq t)) (code : Byte) (c : Ctl) (s : State) :
    Changes s (s.control code c onBroadcast handle) := by
  unfold State.control
  split
  · exact ((changes_forward ..).trans (changes_arrive _)).trans (hb _)
  · split
    · exact (changes_arrive s).trans (changes_addressed ha ..)
    · exact (changes_forward ..).trans (changes_arrive _)

theorem changes_request {kind : ReqKind} {body : Body} (hb : BodyChanges kind body) (c : Ctl) (s : State) :
    Changes s (s.request kind body c) :=
  changes_control (changes_broadcast hb c) (fun rq => changes_tested hb c rq) _ c s

theorem makes_request {kind : ReqKind} {body : Body} (hb : BodyChanges kind body) (dt : Nat) (c : Ctl) (s : State) :
    Makes s (request kind body dt c s) := makes_receive (changes_request hb c) dt s

/-! ## Whom a body serves -/

theorem changes_forSession {k : Call} {s : State} {f : Fin 4 → Byte → State × Reply}
    (h : ∀ i key, k.caller = .session i key → Changes s (f i key).1) : Changes s (forSession k s f).1 := by
  unfold forSession
  split
  case h_1 i key caller => exact h i key caller
  all_goals exact .refl

theorem changes_forEditor {k : Call} {s : State} {f : EditBuffer → State × Reply}
    (h : ∀ e, s.ms.edit = some e → Changes s (f e).1) : Changes s (forEditor k s f).1 := by
  refine changes_forSession fun i key _ => ?_
  split
  case h_1 e present =>
    split
    · exact h e present
    · exact .refl
  case h_2 => exact .refl

theorem changes_forStager {k : Call} {s : State} {f : Fin 4 → Byte → Fin 8 → Curves → State × Reply}
    (h : ∀ i key t cv, s.cu.staging = .owned key t cv → Changes s (f i key t cv).1) :
    Changes s (forStager k s f).1 := by
  refine changes_forSession fun i key _ => ?_
  split
  case h_1 owner t cv owned =>
    split
    case isTrue same => subst same; exact h i owner t cv owned
    case isFalse => exact .refl
  all_goals exact .refl

theorem Call.Holds.opened {k : Call} {s : State} (holds : k.Holds s) {i : Fin 4} {key : Byte}
    (caller : k.caller = .session i key) : s.opened key := by
  obtain ⟨d, present, same⟩ := holds i key caller
  exact ⟨i, d, present, same⟩

/-! ## Reading and selecting -/

theorem readStatus_changes : BodyChanges .readStatus readStatusBody := fun k s _ _ => by
  unfold readStatusBody; split <;> exact .refl

theorem readTile_changes : BodyChanges .readTile readTileBody := fun k s _ _ => by
  unfold readTileBody
  repeat' split
  all_goals exact .refl

theorem readPort_changes : BodyChanges .readPort readPortBody := fun k s _ _ => by
  unfold readPortBody; split <;> exact .refl

theorem readStoreStatus_changes : BodyChanges .readStoreStatus readStoreStatusBody := fun k s _ _ => by
  unfold readStoreStatusBody; split <;> exact .refl

theorem keep_changes : BodyChanges .keep keepBody := fun k s _ _ => by
  refine changes_forSession fun i key _ => ?_
  split <;> exact .refl

theorem MapStore.isReady_iff {m : MapStore} {c : Fin 4} : m.isReady c = true ↔ m.contexts[c].status = .ready := by
  simp [MapStore.isReady]

/-- A switch part that names READY contexts is placed (R29 to R31). -/
theorem changes_placeSwitch {w : SwitchPart} {s : State}
    (ready : ∀ c, w.target.names c = true → s.ms.contexts[c].status = .ready) : Changes s (s.placeSwitch w) := by
  refine .trans (Change.reveal (s := s) (m := { s.ms with switch := some w }) rfl rfl fun c used => ?_).once
    (changes_raiseIf ..)
  simp only [MapStore.inUse, Bool.or_eq_true] at used ⊢
  exact used.imp .inl (ready c)

theorem selectContext_changes : BodyChanges .selectContext selectContextBody := fun k s _ _ => by
  unfold selectContextBody
  split
  case h_1 => exact .refl
  case h_2 c n _ =>
    split
    case isTrue ready =>
      refine changes_placeSwitch fun x named => ?_
      have same : c = x := by simpa [Target.names] using named
      exact same ▸ MapStore.isReady_iff.mp ready
    case isFalse => exact .refl

theorem MapStore.ready_of_firstNotReady {m : MapStore} {es : List SeqEntry} (none : m.firstNotReady es = none) {c : Fin 4}
    (named : (Target.sequence es).names c = true) : m.contexts[c].status = .ready := by
  obtain ⟨e, mem, same⟩ : ∃ e ∈ es, e.ctx = c := by simpa [Target.names] using named
  have all : ∀ e ∈ es, m.isReady e.ctx = true := by simpa [MapStore.firstNotReady] using none
  exact same ▸ MapStore.isReady_iff.mp (all e mem)

theorem selectSequence_changes : BodyChanges .selectSequence selectSequenceBody := fun k s _ _ => by
  unfold selectSequenceBody
  split
  case h_1 => exact .refl
  case h_2 es n _ =>
    split
    case h_1 => exact .refl
    case h_2 none => exact changes_placeSwitch fun c => MapStore.ready_of_firstNotReady none

theorem cancelSelect_changes : BodyChanges .cancelSelect cancelSelectBody := fun k s _ _ => by
  unfold cancelSelectBody
  split
  case h_1 => exact .refl
  case h_2 =>
    split
    case isTrue =>
      refine (Change.reveal (m := { s.ms with switch := none }) rfl rfl fun c used => .inl ?_).once
      have used : s.ms.selection.names c = true := by simpa [MapStore.inUse] using used
      simp [MapStore.inUse, used]
    case isFalse => exact .refl

theorem hold_changes : BodyChanges .hold holdBody := fun k s _ _ => by
  unfold holdBody
  split
  · exact .refl
  · exact (Change.reveal (m := { s.ms with hold := true }) rfl rfl fun _ used => .inl used).once

theorem release_changes : BodyChanges .release releaseBody := fun k s _ _ => by
  unfold releaseBody
  split
  · exact .refl
  · exact (Change.reveal (m := { s.ms with hold := false }) rfl rfl fun _ used => .inl used).once

/-! ## Editing -/

theorem openEdit_changes : BodyChanges .openEdit openEditBody := fun k s holds phase => by
  refine changes_forSession fun i key caller => ?_
  have running : s.phase = .running := by
    cases h : s.phase with
    | starting => exact absurd (phase h) (by decide)
    | running => rfl
  split
  case h_1 => exact .refl
  case h_2 c copy _ =>
    split
    · exact .refl
    split
    · exact .refl
    split
    · exact .refl
    case isFalse.isFalse.isFalse free unused =>
      exact (Change.openEdit copy running (by simpa using free) (by simpa using unused) (holds.opened caller)).once

/-- What a request of the buffer's owner leaves in it. -/
theorem changes_putEdit {e e' : EditBuffer} {s : State} (present : s.ms.edit = some e) (owner : e'.owner = e.owner)
    (target : e'.target = e.target) : Changes s (s.putEdit e') := (Change.putEdit present owner target).once

theorem setTile_changes : BodyChanges .setTile setTileBody := fun k s _ _ => by
  refine changes_forEditor fun e present => ?_
  split
  · exact .refl
  · exact changes_putEdit present rfl rfl

theorem clearTile_changes : BodyChanges .clearTile clearTileBody := fun k s _ _ => by
  refine changes_forEditor fun e present => ?_
  split
  · exact .refl
  · exact changes_putEdit present rfl rfl

theorem setFill_changes : BodyChanges .setFill setFillBody := fun k s _ _ => by
  refine changes_forEditor fun e present => ?_
  split
  · exact .refl
  · exact changes_putEdit present rfl rfl

theorem checkEdit_changes : BodyChanges .checkEdit checkEditBody := fun k s _ _ => by
  refine changes_forEditor fun e present => ?_
  split
  · exact .refl
  · dsimp only
    split <;> exact changes_putEdit present rfl rfl

theorem closeEdit_changes : BodyChanges .closeEdit closeEditBody := fun k s _ _ => by
  refine changes_forEditor fun e present => ?_
  split
  · exact .refl
  split
  · exact changes_putEdit present rfl rfl
  split
  · exact .refl
  · exact (Change.closeEdit present).once

theorem abandonEdit_changes : BodyChanges .abandonEdit abandonEditBody := fun k s _ _ => by
  refine changes_forEditor fun _ _ => ?_
  split
  · exact .refl
  · exact Change.releaseEdit.once

/-! ## The curves -/

theorem mem_cellWrite {α : Type} [DecidableEq α] {dflt : Nat → α} {a : Nat} {v : α} {m : Cells α} {e : Nat × α}
    (mem : e ∈ cellWrite dflt a v m) : e = (a, v) ∨ e ∈ m := by
  induction m with
  | nil =>
    unfold cellWrite at mem
    split at mem <;> simp_all
  | cons x m ih =>
    obtain ⟨b, u⟩ := x
    unfold cellWrite at mem
    repeat' split at mem
    · exact .inr mem
    · exact List.mem_cons.mp mem
    · exact .inr (List.mem_cons_of_mem _ mem)
    · exact (List.mem_cons.mp mem).imp_right (List.mem_cons_of_mem _)
    · rcases List.mem_cons.mp mem with rfl | mem
      · exact .inr List.mem_cons_self
      · exact (ih mem).imp_right (List.mem_cons_of_mem _)

theorem mem_cellWriteList {α : Type} [DecidableEq α] {dflt : Nat → α} {a : Nat} {vs : List α} {m : Cells α}
    {e : Nat × α} (mem : e ∈ cellWriteList dflt a vs m) : (a ≤ e.1 ∧ e.1 < a + vs.length ∧ e.2 ∈ vs) ∨ e ∈ m := by
  induction vs generalizing a m with
  | nil => exact .inr mem
  | cons v vs ih =>
    rcases ih mem with ⟨low, high, value⟩ | mem
    · exact .inl ⟨by omega, by simp; omega, List.mem_cons_of_mem _ value⟩
    · rcases mem_cellWrite mem with rfl | mem
      · exact .inl ⟨Nat.le_refl _, by simp, List.mem_cons_self⟩
      · exact .inr mem

/-- Values 0..4095 written within the three curves keep them in form (R170). -/
theorem curvesOk_curveWrite {pos : Nat} {vs : List Nat} {t : Curves} (ok : curvesOk t)
    (inside : pos + vs.length ≤ Config.tableEntries) (range : ∀ v ∈ vs, v < 4096) : curvesOk (curveWrite pos vs t) := by
  obtain ⟨form, entries⟩ := ok
  refine ⟨Memory.wf_writeList pos vs form, fun e mem => ?_⟩
  rcases mem_cellWriteList mem with ⟨_, high, value⟩ | mem
  · exact ⟨by omega, range _ value⟩
  · exact entries e mem

theorem curvesOk_nil : curvesOk [] := ⟨rfl, by simp⟩

theorem curvesOk_curvesOf {vs : List Nat} (length : vs.length = Config.tableEntries) (range : ∀ v ∈ vs, v < 4096) :
    curvesOk (curvesOf vs) := curvesOk_curveWrite curvesOk_nil (by omega) range

theorem curvesOk_of_body {ws : List Word} {t : Curves} (form : curvesOfBody ws = some t) : curvesOk t := by
  unfold curvesOfBody at form
  split at form
  case isTrue conditions =>
    obtain ⟨length, range⟩ := conditions
    obtain rfl := by simpa using form
    exact curvesOk_curvesOf (by simpa using length) (by simpa using range)
  case isFalse => cases form

theorem values12_range {bs : List Byte} {vs : List Nat} (read : values12 bs = some vs) : ∀ v ∈ vs, v < 4096 := by
  induction bs using values12.induct generalizing vs with
  | case1 => obtain rfl : [] = vs := by simpa [values12] using read
             simp
  | case2 hi lo rest inside ih =>
    obtain ⟨ws, tail, rfl⟩ : ∃ ws, values12 rest = some ws ∧ num2 hi lo :: ws = vs := by
      simpa [values12, inside] using read
    simpa [inside] using ih tail
  | case3 hi lo rest outside => simp [values12, outside] at read
  | case4 b => simp [values12] at read

theorem cursorWriteOperands_range {ops : List Byte} {vs : List Nat} (read : cursorWriteOperands ops = some vs) :
    ∀ v ∈ vs, v < 4096 := by
  unfold cursorWriteOperands at read
  repeat' split at read
  case isTrue values _ =>
    obtain rfl := by simpa using read
    exact values12_range values
  all_goals cases read

/-- The Correction Unit changes where it owns what it owned, or less. -/
theorem changes_correct {u : CorrectionUnit} {s : State} (curves : CurvesOk s.cu → CurvesOk u)
    (owner : ∀ key t cv, u.staging = .owned key t cv → ∃ t' cv', s.cu.staging = .owned key t' cv') :
    Changes s { s with cu := u } := (Change.correct curves fun key t cv owned => .inr (owner key t cv owned)).once

theorem CorrectionUnit.stage_owned {c : CorrectionUnit} {f : Curves → Curves} {key : Byte} {t : Fin 8} {cv : Curves}
    (owned : (c.stage f).staging = .owned key t cv) : ∃ t' cv', c.staging = .owned key t' cv' := by
  unfold CorrectionUnit.stage at owned
  split at owned
  case h_1 key' t' cv' owned' =>
    obtain ⟨rfl, rfl, rfl⟩ := by simpa using owned
    exact ⟨_, _, owned'⟩
  all_goals exact ⟨_, _, owned⟩

theorem CorrectionUnit.stage_ok {c : CorrectionUnit} {f : Curves → Curves} (write : ∀ t, curvesOk t → curvesOk (f t))
    (ok : CurvesOk c) : CurvesOk (c.stage f) := by
  unfold CorrectionUnit.stage
  split
  case h_1 key t cv owned =>
    have staged : curvesOk cv := by have := ok.staging; rwa [owned] at this
    exact ⟨ok.tables, write cv staged⟩
  all_goals exact ok

theorem changes_stage {f : Curves → Curves} (write : ∀ t, curvesOk t → curvesOk (f t)) (s : State) :
    Changes s { s with cu := s.cu.stage f } :=
  changes_correct (CorrectionUnit.stage_ok write) fun _ _ _ => CorrectionUnit.stage_owned

theorem changes_setCursor (i : Fin 4) (c : Option Cursor) (s : State) : Changes s (s.setCursor i c) :=
  changes_modSession (by exact fun _ => rfl) i s

theorem changes_dropStagingCursor (i : Fin 4) (s : State) : Changes s (s.dropStagingCursor i) := by
  unfold State.dropStagingCursor
  split
  · exact changes_setCursor ..
  all_goals exact .refl

theorem cursorSet_changes : BodyChanges .cursorSet cursorSetBody := fun k s _ _ => by
  refine changes_forSession fun i key _ => ?_
  repeat' split
  · exact .refl
  · exact .refl
  · exact changes_setCursor ..

theorem cursorRead_changes : BodyChanges .cursorRead cursorReadBody := fun k s _ _ => by
  refine changes_forSession fun i key _ => ?_
  repeat' split
  · exact .refl
  · exact .refl
  · exact .refl
  · exact changes_setCursor ..

theorem cursorWrite_changes : BodyChanges .cursorWrite cursorWriteBody := fun k s _ _ => by
  refine changes_forSession fun i key _ => ?_
  split
  case h_1 => exact .refl
  case h_2 vs read =>
    split
    · exact .refl
    · exact .refl
    split
    case isTrue => exact .refl
    case isFalse inside =>
      split
      case isTrue =>
        refine .trans (changes_stage (fun t ok => ?_) s) (changes_setCursor ..)
        exact curvesOk_curveWrite ok (by omega) (cursorWriteOperands_range read)
      case isFalse => exact .refl

/-! ## Staging -/

theorem beginTable_changes : BodyChanges .beginTable beginTableBody := fun k s holds _ => by
  refine changes_forSession fun i key caller => ?_
  split
  · exact .refl
  case h_2 t copy _ =>
    split
    · exact .refl
    split
    · exact .refl
    refine (Change.correct (s := s) (u := { s.cu with staging := .owned key t (if copy then s.cu.tables[t] else []) })
      (fun ok => ⟨ok.tables, ?_⟩) fun key' t' cv owned => .inl ?_).once
    · show curvesOk _
      split
      · exact ok.tables t
      · exact curvesOk_nil
    · obtain ⟨rfl, -, -⟩ : key = key' ∧ t = t' ∧ _ := by simpa using owned
      exact holds.opened caller

theorem endTable_changes : BodyChanges .endTable endTableBody := fun k s _ _ => by
  refine changes_forStager fun i key t cv owned => ?_
  split
  · exact .refl
  refine .trans ?_ (changes_dropStagingCursor ..)
  refine (Change.reveal (s := s) (m := { s.ms with install := some t }) rfl rfl fun _ used => .inl used).then ?_
  refine changes_correct (fun ok => ⟨ok.tables, ?_⟩) fun _ _ _ owned => by cases owned
  have := ok.staging
  rwa [owned] at this

theorem abandonTable_changes : BodyChanges .abandonTable abandonTableBody := fun k s _ _ => by
  refine changes_forStager fun i key t cv owned => ?_
  split
  · exact .refl
  refine .trans ?_ (changes_dropStagingCursor ..)
  exact changes_correct (fun ok => ⟨ok.tables, trivial⟩) fun _ _ _ owned => by cases owned

/-! ## Ports and notices -/

theorem setPort_changes : BodyChanges .setPort setPortBody := fun k s _ _ => by
  refine changes_forSession fun i key _ => ?_
  split
  · exact .refl
  · exact changes_atPort _ (fun ok => ok.configure ..) s

theorem forcePattern_changes : BodyChanges .forcePattern forcePatternBody := fun k s _ _ => by
  unfold forcePatternBody
  split
  · exact .refl
  · show Changes s (s.forcePattern _ _)
    unfold State.forcePattern
    split
    · exact changes_atPort _ (fun ok => ok.force ..) s
    · exact changes_atPorts (fun ok => ok.force ..) s

theorem setCadence_changes : BodyChanges .setCadence setCadenceBody := fun k s _ _ => by
  unfold setCadenceBody
  split
  · exact .refl
  · exact Changes.quiet ⟨rfl, rfl, rfl, rfl, rfl, rfl, rfl, rfl, rfl⟩

theorem setNoticeClass_changes : BodyChanges .setNoticeClass setNoticeClassBody := fun k s _ _ => by
  refine changes_forSession fun i key _ => ?_
  split
  · exact .refl
  · exact (Change.setClass ..).once

/-! ## The store's requests -/

/-- A change of the Record Store that is no access to the banks. -/
theorem changes_store {r : RecordStore} {s : State} (bankA : r.bankA = s.rs.bankA) (bankB : r.bankB = s.rs.bankB)
    (load : r.load = s.rs.load) : Changes s { s with rs := r } :=
  (Change.store (fun ok => ⟨bankA ▸ ok.bankA, bankB ▸ ok.bankB⟩) (load ▸ id)).once

theorem changes_storeTests {full : Bool} {s : State} {own : State × Reply} (h : Changes s own.1) :
    Changes s (storeTests full s own).1 := by
  unfold storeTests
  split
  · exact .refl
  split
  · exact .refl
  · exact h

theorem changes_accept (kind : ReqKind) (recKey : Option RecKey) (i : Fin 4) (key : Byte) (addr : Nat) (body : List Word)
    (s : State) : Changes s (s.accept kind recKey i key addr body).1 := changes_store rfl rfl rfl

theorem changes_acceptSave (kind : ReqKind) (recKey : RecKey) (i : Fin 4) (key : Byte) (body : List Word) (s : State) :
    Changes s (s.acceptSave kind recKey i key body).1 := by
  unfold State.acceptSave
  split
  · exact .refl
  · exact .trans (b := s.advanceAppend (4 + body.length)) (changes_store rfl rfl rfl) (changes_accept ..)

theorem changes_acceptRestore (kind : ReqKind) (recKey : RecKey) (i : Fin 4) (key : Byte) (s : State) :
    Changes s (s.acceptRestore kind recKey i key).1 := by
  unfold State.acceptRestore
  split
  · exact .refl
  · exact changes_accept ..

theorem saveContext_changes : BodyChanges .saveContext saveContextBody := fun k s _ _ => by
  refine changes_forSession fun i key _ => ?_
  split
  · exact .refl
  refine changes_storeTests ?_
  split
  · exact changes_acceptSave ..
  · exact .refl

theorem saveTable_changes : BodyChanges .saveTable saveTableBody := fun k s _ _ => by
  refine changes_forSession fun i key _ => ?_
  split
  · exact .refl
  refine changes_storeTests ?_
  split
  · exact .refl
  · exact changes_acceptSave ..

theorem saveSettings_changes : BodyChanges .saveSettings saveSettingsBody := fun k s _ _ => by
  refine changes_forSession fun i key _ => ?_
  split
  · exact .refl
  · exact changes_storeTests (changes_acceptSave ..)

theorem restoreContext_changes : BodyChanges .restoreContext restoreContextBody := fun k s _ _ => by
  refine changes_forSession fun i key _ => ?_
  split
  · exact .refl
  split
  · exact changes_storeTests (changes_acceptRestore ..)
  · exact .refl

theorem restoreTable_changes : BodyChanges .restoreTable restoreTableBody := fun k s _ _ => by
  refine changes_forSession fun i key _ => ?_
  split
  · exact .refl
  split
  · exact changes_storeTests (changes_acceptRestore ..)
  · exact .refl

theorem deleteRecord_changes : BodyChanges .deleteRecord deleteRecordBody := fun k s _ _ => by
  refine changes_forSession fun i key _ => ?_
  split
  · exact .refl
  refine changes_storeTests ?_
  split
  · exact .refl
  · exact changes_accept ..

theorem compact_changes : BodyChanges .compact compactBody := fun k s _ _ => by
  refine changes_forSession fun i key _ => ?_
  split
  · exact .refl
  · exact changes_storeTests (changes_accept ..)

theorem eraseStore_changes : BodyChanges .eraseStore eraseStoreBody := fun k s _ _ => by
  refine changes_forSession fun i key _ => ?_
  split
  · exact .refl
  · exact changes_storeTests (changes_accept ..)

/-! ## Sessions, enumeration and RESET -/

theorem fin?_eq_some {n v : Nat} {x : Fin n} (h : fin? n v = some x) : x.1 = v := by
  unfold fin? at h
  split at h
  · obtain rfl := by simpa using h
    rfl
  · cases h

theorem openSessionOperands_key {ops : List Byte} {key : Byte} {lease : Nat}
    (read : openSessionOperands ops = some (key, lease)) : key ≠ 0 := by
  unfold openSessionOperands at read
  repeat' split at read
  · cases read
  case isFalse nonzero =>
    obtain ⟨_, _, rfl, _⟩ := by simpa using read
    exact nonzero
  · cases read

theorem changes_openSession (c : Ctl) (rq : Fin 8) (s : State) : Changes s (s.openSession c rq) := by
  unfold State.openSession
  dsimp only
  split
  case h_1 => exact changes_respond ..
  case h_2 key lease read =>
    split
    case h_1 i d found =>
      repeat' split
      · exact changes_resend ..
      · exact changes_respond ..
      · exact changes_respond ..
    case h_2 unknown =>
      split
      case h_1 => exact changes_respond ..
      case h_2 i free =>
        refine (changes_respond ..).trans (Change.openSession (i := i) ?_ ?_ ?_).once
        · exact openSessionOperands_key read
        · exact fun j e present => State.findSession_none unknown j e present
        · exact State.freeSession_some free

theorem closeSession_changes : BodyChanges .closeSession closeSessionBody := fun k s holds _ => by
  refine changes_forSession fun i key caller => ?_
  split
  · exact .refl
  obtain ⟨d, present, rfl⟩ := holds i key caller
  show Changes s ((s.releaseOwned d.key).freeSlot i)
  unfold State.releaseOwned
  rw [MapStore.releaseEdit_of_owner, CorrectionUnit.releaseStaging_of_owner]
  exact (Change.closeSession present).once

theorem enumerate_changes : BodyChanges .enumerate enumerateBody := fun _ _ _ _ => .refl

theorem changes_enumerated (a : Byte) (c : Ctl) (rq : Fin 8) (s : State) : Changes s (s.enumerated a c rq) := by
  unfold State.enumerated
  split
  · refine .trans (.trans (.trans ?_ (changes_respond ..)) (changes_raise ..)) (changes_forward ..)
    exact Changes.quiet ⟨rfl, rfl, rfl, rfl, rfl, rfl, rfl, rfl, rfl⟩
  · exact (changes_respond ..).trans (changes_forward ..)

theorem changes_enumeration (c : Ctl) (s : State) : Changes s (s.enumeration c) := by
  unfold State.enumeration
  split
  · exact changes_forward ..
  split
  · exact changes_forward ..
  split
  · exact changes_forward ..
  split
  case h_1 => exact changes_forward ..
  case h_2 rq free => exact (Change.reserve free ..).then (changes_enumerated ..)

theorem changes_softReset (s : State) : Changes s s.softReset := by
  refine .trans (.trans ?_ (changes_raiseIf ..)) (changes_raiseIf ..)
  exact Change.softReset.then ((changes_uplink _ _).trans (changes_store rfl rfl rfl))

theorem reset_changes : BodyChanges .reset resetBody := fun k s _ _ => by
  unfold resetBody
  split
  · exact .refl
  · exact changes_softReset s
  · exact Changes.quiet ⟨rfl, rfl, rfl, rfl, rfl, rfl, rfl, rfl, rfl⟩

theorem raiseIf_freeSlot (o : Option Detail) (i : Fin 4) (s : State) :
    (s.raiseIf o).freeSlot i = (s.freeSlot i).raiseIf o := by cases o <;> rfl

theorem changes_leaseExpiry (i : Fin 4) {d : Session} {s : State} (present : s.sessions[i] = some d) :
    Changes s ((s.abandonOwned d.key).freeSlot i) := by
  unfold State.abandonOwned
  rw [MapStore.releaseEdit_of_owner, CorrectionUnit.releaseStaging_of_owner, raiseIf_freeSlot, raiseIf_freeSlot]
  exact (Change.closeSession present).then ((changes_raiseIf ..).trans (changes_raiseIf ..))

end Sys2Proof.Machine
end

section
/-!
PROOFS. Every command is a sequence of elementary changes (continued): the ends of long operations, resets and the
start-up load, the return lane, and the table of all commands.
-/

namespace Sys2Proof.Machine

/-! ## The ends of long operations -/

theorem changes_answerLong (op : Operation) (st : Status) (res : List Byte) (s : State) :
    Changes s (s.answerLong op st res) := by
  unfold State.answerLong
  repeat' split
  · exact (Change.fill ..).then (changes_modSession (by exact fun _ => rfl) _ _)
  all_goals exact .refl

theorem changes_finish (op : Operation) (st : Status) (res : List Byte) (s : State) :
    Changes s (s.finish op st res) := by
  unfold State.finish
  dsimp only
  split
  · exact Changes.after (changes_answerLong ..) (changes_store rfl rfl rfl)
  · exact changes_store rfl rfl rfl

/-- What accesses leave in the banks is in canonical form, and no load begins. -/
theorem changes_performed {m : Option Mishap} {as : List Access} {r : RecordStore} {s : State}
    (bankA : r.bankA = (s.rs.perform m 0 as).1.bankA) (bankB : r.bankB = (s.rs.perform m 0 as).1.bankB)
    (load : r.load ≠ none → (s.rs.perform m 0 as).1.load ≠ none) : Changes s { s with rs := r } := by
  refine (Change.store (fun ok => ?_) fun started => ?_).once
  · obtain ⟨formA, formB⟩ := RecordStore.perform_wf m 0 as ⟨ok.bankA, ok.bankB⟩
    exact ⟨bankA ▸ formA, bankB ▸ formB⟩
  · obtain ⟨_, _, same⟩ := s.rs.perform_eq m 0 as
    have := load started
    rwa [same] at this

theorem changes_saveEnds (op : Operation) (k : RecKey) (fault : Option Mishap) (s : State) :
    Changes s (s.saveEnds op k fault) := by
  unfold State.saveEnds
  dsimp only
  split
  · exact Changes.after (changes_raiseIf ..) (Changes.after (changes_finish ..) (changes_performed rfl rfl id))
  · refine Changes.after (changes_raise ..) (Changes.after (changes_finish ..) ?_)
    split <;> exact changes_performed rfl rfl id

theorem changes_restoreContextEnds (op : Operation) (s : State) : Changes s (s.restoreContextEnds op) := by
  unfold State.restoreContextEnds
  split
  · exact changes_finish ..
  split
  · exact changes_finish ..
  case h_2 f t _ =>
    split
    · refine Changes.after (changes_finish ..) ?_
      unfold MapStore.restored
      cases present : s.ms.edit with
      | none => exact (Change.reveal (m := { s.ms with edit := none }) rfl present.symm fun _ used => .inl used).once
      | some e => exact changes_putEdit present rfl rfl
    · exact changes_finish ..

theorem changes_restoreTableEnds (op : Operation) (s : State) : Changes s (s.restoreTableEnds op) := by
  unfold State.restoreTableEnds
  split
  · exact changes_finish ..
  split
  · exact changes_finish ..
  case h_2 t form =>
    split
    · exact Changes.after (changes_finish ..) (changes_stage (fun _ _ => curvesOk_of_body form) s)
    · exact changes_finish ..

theorem changes_deleteEnds (op : Operation) (k : RecKey) (fault : Option Mishap) (s : State) :
    Changes s (s.deleteEnds op k fault) := by
  unfold State.deleteEnds
  dsimp only
  split
  · exact Changes.after (changes_finish ..) (changes_performed rfl rfl id)
  · exact Changes.after (changes_raise ..) (Changes.after (changes_finish ..) (changes_performed rfl rfl id))

theorem changes_compactEnds (op : Operation) (fault : Option Mishap) (s : State) :
    Changes s (s.compactEnds op fault) := by
  unfold State.compactEnds
  dsimp only
  split
  · exact Changes.after (changes_finish ..) (changes_performed rfl rfl id)
  · refine Changes.after (changes_raise ..) (Changes.after (changes_finish ..) ?_)
    split <;> exact changes_performed rfl rfl id

theorem changes_eraseEnds (op : Operation) (fault : Option Mishap) (s : State) : Changes s (s.eraseEnds op fault) := by
  unfold State.eraseEnds
  dsimp only
  split
  · exact Changes.after (changes_finish ..) (changes_performed rfl rfl id)
  · exact Changes.after (changes_raise ..) (Changes.after (changes_finish ..) (changes_performed rfl rfl id))

/-! ## Resets -/

theorem atReset_restarted (s : State) : AtReset s.restarted where
  phase := rfl
  sessions := rfl
  rq := rfl
  ns := rfl
  ms := rfl
  cu := rfl
  ports i := ⟨s.ports[i].ready, by simp [State.restarted]⟩
  buffer := rfl

theorem AtReset.of_same {s t : State} (h : AtReset s) (same : SameBlocks s t) : AtReset t where
  phase := same.phase.trans h.phase
  sessions := same.sessions.trans h.sessions
  rq := same.rq.trans h.rq
  ns := same.ns.trans h.ns
  ms := same.ms.trans h.ms
  cu := same.cu.trans h.cu
  ports := same.ports ▸ h.ports
  buffer := same.buffer.trans h.buffer

theorem changes_restarted (s : State) : Changes s s.restarted :=
  (Change.restart (s := s) (atReset_restarted s) fun ok => ⟨ok.bankA, ok.bankB⟩).once

theorem changes_heldInReset (s : State) : Changes s s.heldInReset := by
  refine (changes_restarted s).trans (.trans (b := { s.restarted with rs := { s.restarted.rs with load := none } }) ?_ ?_)
  · exact (Change.store (s := s.restarted) (r := { s.restarted.rs with load := none })
      (fun ok => ⟨ok.bankA, ok.bankB⟩) fun started => absurd rfl started).once
  · exact Changes.quiet ⟨rfl, rfl, rfl, rfl, rfl, rfl, rfl, rfl, rfl⟩

theorem changes_cutStore (cut : Mishap) (s : State) : Changes s (s.cutStore cut) := by
  refine (Change.store (fun ok => ?_) fun started => ?_).once
  · obtain ⟨formA, formB⟩ := RecordStore.cutOff_wf cut 0 s.rs.inProgress ⟨ok.bankA, ok.bankB⟩
    exact ⟨formA, formB⟩
  · obtain ⟨_, _, same⟩ := RecordStore.cutOff_eq cut 0 s.rs.inProgress s.rs
    rwa [RecordStore.cut, same] at started

theorem changes_fullResetNow (cut : Mishap) (s : State) : Changes s (s.fullResetNow cut) :=
  ((changes_cutStore cut s).trans (changes_restarted _)).trans
    (Changes.quiet ⟨rfl, rfl, rfl, rfl, rfl, rfl, rfl, rfl, rfl⟩)

/-! ## The start-up load -/

/-- A step of the load leaves the banks, and loads on or ends. -/
theorem changes_load {r : RecordStore} {s : State} (f : Load → Load) (bankA : r.bankA = s.rs.bankA)
    (bankB : r.bankB = s.rs.bankB) (load : r.load = s.rs.load.map f) : Changes s { s with rs := r } := by
  refine (Change.store (fun ok => ⟨bankA ▸ ok.bankA, bankB ▸ ok.bankB⟩) ?_).once
  rw [load]
  simp

theorem changes_atStep (step : LoadStep) (s : State) : Changes s (s.atStep step) :=
  changes_load _ rfl rfl rfl

theorem changes_chooseBank (fault : Option Mishap) (s : State) : Changes s (s.chooseBank fault) := by
  unfold State.chooseBank
  split
  · exact Changes.after (changes_atStep ..) (changes_store rfl rfl rfl)
  · dsimp only
    split
    · exact Changes.after (changes_atStep ..) (changes_performed rfl rfl id)
    · exact Changes.after (changes_raise ..) (changes_performed rfl rfl (by simp))

theorem changes_raiseAll (ds : List Detail) (s : State) : Changes s (s.raiseAll ds) :=
  Changes.foldl (fun s d => changes_raise d s) ds s

theorem changes_scanned (sc : Scan) (s : State) : Changes s { s with rs := s.rs.scanned sc } :=
  changes_load _ rfl rfl rfl

theorem changes_setClasses (cs : Vector (Fin 4) 16) (s : State) : Changes s { s with ns := s.ns.setClasses cs } := by
  have each (l : List NoticeKind) (s : State) :
      Changes s { s with ns := l.foldl (fun n k => n.setClass k cs[k.idx]) s.ns } := by
    induction l generalizing s with
    | nil => exact .refl
    | cons k l ih => exact (Change.setClass k cs[k.idx]).then (ih _)
  exact each NoticeKind.all s

theorem changes_loadContext {s : State} (loading : s.rs.load ≠ none) (c : Fin 4) (e : DirEntry) (body : List Word) :
    Changes s (s.loadContext c e body) := by
  unfold State.loadContext
  split
  · exact changes_raise ..
  split
  case h_1 f t _ => exact (Change.loadContext loading c t f).once
  case h_2 => exact changes_raise ..
  case h_3 => exact .refl

theorem changes_loadTable (t : Fin 8) (e : DirEntry) (body : List Word) (s : State) :
    Changes s (s.loadTable t e body) := by
  unfold State.loadTable
  split
  case h_2 => exact changes_raise ..
  case h_1 curves form =>
    have inForm : curvesOk curves := by
      split at form
      · cases form
      · exact curvesOk_of_body form
    refine .trans (changes_correct (u := { s.cu with tables := upd s.cu.tables t curves })
      (fun ok => ⟨fun i => ?_, ok.staging⟩) fun key u cv owned => ⟨u, cv, owned⟩) ?_
    · rw [upd_apply]
      split
      · exact inForm
      · exact ok.tables i
    · exact changes_load _ rfl rfl rfl

theorem changes_loadSettings (e : DirEntry) (body : List Word) (s : State) : Changes s (s.loadSettings e body) := by
  unfold State.loadSettings
  split
  case h_2 => exact changes_raise ..
  case h_1 st _ =>
    refine (Change.ports (s := s) (ps := configuredPorts st s.ports) fun i ok => ?_).then ?_
    · exact ok.of_eq (by simp [configuredPorts]) (by simp [configuredPorts])
    refine (changes_setClasses st.classes _).trans (.trans (changes_load (fun l => { l with start := st.start })
      (r := { s.rs with load := s.rs.load.map fun l => { l with start := st.start } }) rfl rfl rfl) ?_)
    exact Changes.quiet ⟨rfl, rfl, rfl, rfl, rfl, rfl, rfl, rfl, rfl⟩

theorem changes_loadRecord {s : State} (loading : s.rs.load ≠ none) (k : RecKey) : Changes s (s.loadRecord k) := by
  unfold State.loadRecord
  split
  · exact .refl
  dsimp only
  split
  · exact changes_loadContext loading ..
  · exact changes_loadTable ..
  · exact changes_loadSettings ..

theorem changes_tidyOne (faults : List (Nat × Word)) (s : State) (a : Nat) : Changes s (State.tidyOne faults s a) := by
  unfold State.tidyOne
  dsimp only
  split
  · exact changes_performed rfl rfl id
  · exact Changes.after (changes_raise ..) (changes_performed rfl rfl id)

theorem Target.mem_contexts {t : Target} {c : Fin 4} (named : t.names c = true) : c ∈ t.contexts := by
  cases t with
  | context d =>
    have same : d = c := by simpa [Target.names] using named
    simp [Target.contexts, same]
  | sequence es => simpa [Target.names, Target.contexts] using named

theorem changes_placeStart (t : Option Target) (s : State) : Changes s (s.placeStart t) := by
  unfold State.placeStart
  split
  case h_1 => exact .refl
  case h_2 t =>
    split
    case h_1 => exact changes_raise ..
    case h_2 none =>
      have all : ∀ c ∈ t.contexts, s.ms.isReady c = true := by simpa using none
      exact changes_placeSwitch fun c named => MapStore.isReady_iff.mp (all c (Target.mem_contexts named))

/-! ## The return lane -/

theorem Downlink.followHold_buffer (now : Nat) (before : Bool) (d : Downlink) :
    (d.followHold now before).buffer = d.buffer := by
  unfold Downlink.followHold; split <;> rfl

theorem changes_changeDown {f : Downlink → Downlink} {s : State}
    (ok : s.dn.buffer.length ≤ 4 → (f s.dn).buffer.length ≤ 4) : Changes s (s.changeDown f) :=
  (Change.downlink (by rwa [Downlink.followHold_buffer])).once

theorem changes_heard {buffer : List (List Byte)} {s : State} (ok : s.dn.buffer.length ≤ 4 → buffer.length ≤ 4) :
    Changes s (s.heard buffer) :=
  (Change.downlink (d := s.dn.heard s.now buffer) ok).then (changes_raiseIf ..)

theorem changes_dropPacket (lane : Lane) (bytes : List Byte) (s : State) : Changes s (s.dropPacket lane bytes) := by
  unfold State.dropPacket
  split
  · exact changes_raise ..
  · exact .refl

theorem changes_beginSend (src : SendSource) (turn : Turn) (s : State) : Changes s (s.beginSend src turn) := by
  refine .trans (b := { s with ns := s.ns.beginFor src }) ?_ (Changes.quiet ⟨rfl, rfl, rfl, rfl, rfl, rfl, rfl, rfl, rfl⟩)
  cases src with
  | notice k => exact (Change.beginNotice k).once
  | response | pass | idle | detached => exact .refl

theorem changes_sendIdle (s : State) : Changes s s.sendIdle := by
  unfold State.sendIdle
  split
  · exact changes_beginSend ..
  · exact .refl

theorem changes_sent (src : SendSource) (s : State) : Changes s (s.sent src) := by
  unfold State.sent
  split
  · exact (Change.release ..).once
  · exact (Change.endNotice ..).once
  · exact changes_changeDown fun ok => by simp; omega
  all_goals exact .refl

/-! ## The commands that are no requests -/

section
variable (dt : Nat) (s : State)

theorem powerOn_makes (cut : Mishap) : Makes s (execPowerOn dt cut s) :=
  makes_next (((changes_elapse dt s).trans (changes_cutStore ..)).trans (changes_heldInReset _))

theorem rstnLow_makes (cut : Mishap) : Makes s (execRstnLow dt cut s) :=
  makes_next (((changes_elapse dt s).trans (changes_cutStore ..)).trans (changes_heldInReset _))

theorem releaseOfReset_makes : Makes s (execReleaseOfReset dt s) := by
  refine makes_next ?_
  split
  · exact (changes_elapse dt s).trans (changes_restarted _)
  · exact changes_elapse dt s

theorem startupBankChoice_makes (fault : Option Mishap) : Makes s (execStartupBankChoice dt fault s) :=
  makes_take (fun t => by
    repeat' split
    · exact changes_chooseBank ..
    all_goals exact .refl) dt s

theorem startupScan_makes : Makes s (execStartupScan dt s) :=
  makes_take (fun t => by
    repeat' split
    · exact changes_atStep ..
    · exact (changes_scanned ..).trans (changes_raiseAll ..)
    all_goals exact .refl) dt s

theorem startupRecordLoad_makes : Makes s (execStartupRecordLoad dt s) :=
  makes_take (fun t => by
    split
    case h_1 l load =>
      split
      · exact (changes_loadRecord (by simp [load]) _).trans (changes_atStep ..)
      all_goals exact .refl
    case h_2 => exact .refl) dt s

theorem startupTidy_makes (faults : List (Nat × Word)) : Makes s (execStartupTidy dt faults s) :=
  makes_take (fun t => by
    repeat' split
    · exact (((Changes.foldl (changes_tidyOne faults) _ t).trans (changes_raiseIf ..)).trans
        (changes_placeStart ..)).trans (changes_atStep ..)
    all_goals exact .refl) dt s

theorem startupLoadCompletion_makes : Makes s (execStartupLoadCompletion dt s) :=
  makes_take (fun t => by
    repeat' split
    · exact Change.finishLoad.then (changes_raise ..)
    all_goals exact .refl) dt s

theorem forwardPacketDropped_makes (bytes : List Byte) : Makes s (execForwardPacketDropped dt bytes s) :=
  makes_receive (changes_dropPacket .forward bytes) dt s

theorem frameStart_makes (f w h : Word) : Makes s (execFrameStart dt f w h s) :=
  makes_receive (fun t => (changes_forward _ t).trans (changes_frameStart ..)) dt s

theorem line_makes (f y x0 : Word) (px : List PixelWord) : Makes s (execLine dt f y x0 px s) :=
  makes_receive (fun t => ((changes_forward _ t).trans (changes_arrive _)).trans (changes_line ..)) dt s

theorem frameEnd_makes (f n : Word) : Makes s (execFrameEnd dt f n s) :=
  makes_receive (fun t => ((changes_forward _ t).trans (changes_arrive _)).trans (changes_frameEnd ..)) dt s

theorem idle_makes : Makes s (execIdle dt s) :=
  makes_receive (fun t => (changes_forward _ t).trans (changes_arrive _)) dt s

theorem forwardUnknownKind_makes (bytes : List Byte) : Makes s (execForwardUnknownKind dt bytes s) :=
  makes_receive (fun t => (changes_forward _ t).trans (changes_arrive _)) dt s

theorem controlNotAddressed_makes (kind : Byte) (c : Ctl) : Makes s (execControlNotAddressed dt kind c s) :=
  makes_receive (fun t => (changes_forward _ t).trans (changes_arrive _)) dt s

theorem unknownRequest_makes (kind : Byte) (c : Ctl) : Makes s (execUnknownRequest dt kind c s) :=
  makes_receive (changes_control (fun _ => .refl) (fun _ _ => changes_respond ..) kind c) dt s

theorem openSession_makes (c : Ctl) : Makes s (execOpenSession dt c s) :=
  makes_receive (changes_control (fun _ => .refl) (fun rq t => by
    split
    · exact changes_respond ..
    · exact changes_openSession ..) _ c) dt s

theorem enumerate_makes (c : Ctl) : Makes s (execEnumerate dt c s) :=
  makes_receive (fun t => by
    split
    · exact (changes_arrive t).trans (changes_enumeration ..)
    · exact changes_request enumerate_changes c t) dt s

theorem saveCompletion_makes (fault : Option Mishap) : Makes s (execSaveCompletion dt fault s) :=
  makes_take (fun t => by
    repeat' split
    · exact changes_saveEnds ..
    all_goals exact .refl) dt s

theorem restoreContextCompletion_makes : Makes s (execRestoreContextCompletion dt s) :=
  makes_take (fun t => by
    repeat' split
    · exact changes_restoreContextEnds ..
    all_goals exact .refl) dt s

theorem restoreTableCompletion_makes : Makes s (execRestoreTableCompletion dt s) :=
  makes_take (fun t => by
    repeat' split
    · exact changes_restoreTableEnds ..
    all_goals exact .refl) dt s

theorem deleteCompletion_makes (fault : Option Mishap) : Makes s (execDeleteCompletion dt fault s) :=
  makes_take (fun t => by
    repeat' split
    · exact changes_deleteEnds ..
    all_goals exact .refl) dt s

theorem compactCompletion_makes (fault : Option Mishap) : Makes s (execCompactCompletion dt fault s) :=
  makes_take (fun t => by
    repeat' split
    · exact changes_compactEnds ..
    all_goals exact .refl) dt s

theorem eraseStoreCompletion_makes (fault : Option Mishap) : Makes s (execEraseStoreCompletion dt fault s) :=
  makes_take (fun t => by
    repeat' split
    · exact changes_eraseEnds ..
    all_goals exact .refl) dt s

theorem leaseExpiry_makes (i : Fin 4) : Makes s (execLeaseExpiry dt i s) :=
  makes_take (fun t => by
    split
    case h_1 d present =>
      split
      · exact ((changes_reach _ t).trans (changes_leaseExpiry i present)).trans (changes_raise ..)
      · exact .refl
    case h_2 => exact .refl) dt s

theorem signalTimerExpiry_makes : Makes s (execSignalTimerExpiry dt s) :=
  makes_take (fun t => by
    split
    · exact .refl
    · exact (((changes_reach _ t).trans (changes_tracker ..)).trans (changes_closeFrame ..)).trans
        (changes_noticeLock ..)) dt s

theorem lineGapTimerExpiry_makes : Makes s (execLineGapTimerExpiry dt s) :=
  makes_take (fun t => by
    split
    · exact .refl
    · exact ((changes_reach _ t).trans (changes_tracker ..)).trans (changes_closeFrame ..)) dt s

theorem acquisitionTimerExpiry_makes : Makes s (execAcquisitionTimerExpiry dt s) :=
  makes_take (fun t => by
    split
    · exact .refl
    · exact ((changes_reach _ t).trans (changes_tracker ..)).trans (changes_noticeLock ..)) dt s

theorem holdoverDeadlineExpiry_makes : Makes s (execHoldoverDeadlineExpiry dt s) :=
  makes_take (fun t => by
    split
    · exact .refl
    · exact ((changes_reach _ t).trans (changes_tracker ..)).trans (changes_noticeLock ..)) dt s

theorem lossTimerExpiry_makes : Makes s (execLossTimerExpiry dt s) :=
  makes_take (fun t => by
    split
    · exact .refl
    · exact ((changes_reach _ t).trans (changes_tracker ..)).trans (changes_noticeLock ..)) dt s

theorem readyRises_makes (i : Fin 8) : Makes s (execReadyRises dt i s) :=
  makes_next ((changes_elapse dt s).trans (changes_atPort i (by exact fun ok => ok.of_eq rfl rfl) _))

theorem readyFalls_makes (i : Fin 8) : Makes s (execReadyFalls dt i s) :=
  makes_next ((changes_elapse dt s).trans (changes_atPort i (by exact fun ok => ok.of_eq rfl rfl) _))

theorem transferCompletion_makes (i : Fin 8) : Makes s (execTransferCompletion dt i s) :=
  makes_take (fun t => by
    split
    · exact changes_atPort i PortOk.complete t
    · exact .refl) dt s

theorem stallTimerExpiry_makes (i : Fin 8) : Makes s (execStallTimerExpiry dt i s) :=
  makes_take (fun t => by
    split
    · exact .refl
    · refine ((changes_reach _ t).trans (changes_raise ..)).trans (Change.ports fun j ok => ?_).once
      rw [upd_apply]
      split
      case isTrue same => subst same; exact ok.of_eq rfl rfl
      case isFalse => exact ok) dt s

theorem changes_cadenceAt (i : Fin 8) (s : State) : Changes s (s.cadenceAt i) := by
  unfold State.cadenceAt
  split
  · exact changes_atPort i (by exact fun ok => ok.of_eq rfl rfl) s
  · exact .refl

theorem cadenceExpiry_makes : Makes s (execCadenceExpiry dt s) :=
  makes_take (fun t => by
    split
    · exact .refl
    · exact Changes.after (Changes.foldl (fun s i => changes_cadenceAt i s) ..)
        (Changes.quiet ⟨rfl, rfl, rfl, rfl, rfl, rfl, rfl, rfl, rfl⟩)) dt s

theorem generatedLinePlaced_makes (i : Fin 8) : Makes s (execGeneratedLinePlaced dt i s) :=
  makes_take (changes_atPort i PortOk.place) dt s

theorem returnReceptionBegins_makes : Makes s (execReturnReceptionBegins dt s) :=
  makes_receive (fun _ => changes_changeDown id) dt s

theorem returnPacket_makes (bytes : List Byte) : Makes s (execReturnPacket dt bytes s) :=
  makes_completeReception (fun t => by
    split
    case isTrue room =>
      have room : t.dn.buffer.length < 4 := room
      exact changes_heard fun _ => by simp; omega
    case isFalse => exact (changes_heard id).trans (changes_raise ..)) dt s

theorem returnIdle_makes : Makes s (execReturnIdle dt s) := makes_completeReception (fun _ => changes_heard id) dt s

theorem returnPacketDropped_makes (bytes : List Byte) : Makes s (execReturnPacketDropped dt bytes s) :=
  makes_completeReception (fun _ => (changes_changeDown id).trans (changes_dropPacket ..)) dt s

theorem linkTimerExpiry_makes : Makes s (execLinkTimerExpiry dt s) :=
  makes_take (fun t => by
    split
    · exact .refl
    · exact Changes.after (changes_raise ..) (Changes.quiet ⟨rfl, rfl, rfl, rfl, rfl, rfl, rfl, rfl, rfl⟩)) dt s

theorem holdInputRises_makes : Makes s (execHoldInputRises dt s) :=
  makes_next ((changes_elapse dt s).trans (changes_uplink ..))

theorem holdInputFalls_makes : Makes s (execHoldInputFalls dt s) :=
  makes_next (((changes_elapse dt s).trans (changes_uplink ..)).trans (changes_sendIdle _))

theorem transmissionBegins_makes : Makes s (execTransmissionBegins dt s) :=
  makes_take (fun t => by
    repeat' split
    · exact changes_beginSend ..
    · exact changes_sendIdle t
    · exact .refl) dt s

theorem idleIntervalExpiry_makes : Makes s (execIdleIntervalExpiry dt s) :=
  makes_take (fun t => by
    split
    · exact .refl
    · exact ((changes_reach _ t).trans (changes_uplink ..)).trans (changes_sendIdle _)) dt s

theorem transmissionCompletion_makes (cut : Mishap) : Makes s (execTransmissionCompletion dt cut s) :=
  makes_take (fun t => by
    split
    · exact .refl
    · dsimp only
      split
      · exact ((changes_uplink _ t).trans (changes_sent ..)).trans (changes_fullResetNow ..)
      · exact (changes_uplink _ t).trans (changes_sent ..)) dt s

end

/-! ## Every command -/

/-- Every command answers a next state, reached by elementary changes. -/
theorem exec_makes (c : Instr) (s : State) : Makes s (exec c s) := by
  cases c with
  | powerOn dt cut => exact powerOn_makes dt s cut
  | rstnLow dt cut => exact rstnLow_makes dt s cut
  | releaseOfReset dt => exact releaseOfReset_makes dt s
  | startupBankChoice dt fault => exact startupBankChoice_makes dt s fault
  | startupScan dt => exact startupScan_makes dt s
  | startupRecordLoad dt => exact startupRecordLoad_makes dt s
  | startupTidy dt faults => exact startupTidy_makes dt s faults
  | startupLoadCompletion dt => exact startupLoadCompletion_makes dt s
  | forwardPacketDropped dt bytes => exact forwardPacketDropped_makes dt s bytes
  | frameStart dt f w h => exact frameStart_makes dt s f w h
  | line dt f y x0 px => exact line_makes dt s f y x0 px
  | frameEnd dt f n => exact frameEnd_makes dt s f n
  | idle dt => exact idle_makes dt s
  | forwardUnknownKind dt bytes => exact forwardUnknownKind_makes dt s bytes
  | controlNotAddressed dt kind c => exact controlNotAddressed_makes dt s kind c
  | unknownRequest dt kind c => exact unknownRequest_makes dt s kind c
  | openSession dt c => exact openSession_makes dt s c
  | closeSession dt c => exact makes_request closeSession_changes dt c s
  | keep dt c => exact makes_request keep_changes dt c s
  | readStatus dt c => exact makes_request readStatus_changes dt c s
  | cursorSet dt c => exact makes_request cursorSet_changes dt c s
  | cursorWrite dt c => exact makes_request cursorWrite_changes dt c s
  | cursorRead dt c => exact makes_request cursorRead_changes dt c s
  | readTile dt c => exact makes_request readTile_changes dt c s
  | openEdit dt c => exact makes_request openEdit_changes dt c s
  | setTile dt c => exact makes_request setTile_changes dt c s
  | clearTile dt c => exact makes_request clearTile_changes dt c s
  | setFill dt c => exact makes_request setFill_changes dt c s
  | checkEdit dt c => exact makes_request checkEdit_changes dt c s
  | closeEdit dt c => exact makes_request closeEdit_changes dt c s
  | abandonEdit dt c => exact makes_request abandonEdit_changes dt c s
  | selectContext dt c => exact makes_request selectContext_changes dt c s
  | selectSequence dt c => exact makes_request selectSequence_changes dt c s
  | cancelSelect dt c => exact makes_request cancelSelect_changes dt c s
  | hold dt c => exact makes_request hold_changes dt c s
  | release dt c => exact makes_request release_changes dt c s
  | beginTable dt c => exact makes_request beginTable_changes dt c s
  | endTable dt c => exact makes_request endTable_changes dt c s
  | abandonTable dt c => exact makes_request abandonTable_changes dt c s
  | setPort dt c => exact makes_request setPort_changes dt c s
  | forcePattern dt c => exact makes_request forcePattern_changes dt c s
  | setCadence dt c => exact makes_request setCadence_changes dt c s
  | readPort dt c => exact makes_request readPort_changes dt c s
  | saveContext dt c => exact makes_request saveContext_changes dt c s
  | saveTable dt c => exact makes_request saveTable_changes dt c s
  | saveSettings dt c => exact makes_request saveSettings_changes dt c s
  | restoreContext dt c => exact makes_request restoreContext_changes dt c s
  | restoreTable dt c => exact makes_request restoreTable_changes dt c s
  | deleteRecord dt c => exact makes_request deleteRecord_changes dt c s
  | compact dt c => exact makes_request compact_changes dt c s
  | eraseStore dt c => exact makes_request eraseStore_changes dt c s
  | readStoreStatus dt c => exact makes_request readStoreStatus_changes dt c s
  | setNoticeClass dt c => exact makes_request setNoticeClass_changes dt c s
  | enumerate dt c => exact enumerate_makes dt s c
  | reset dt c => exact makes_request reset_changes dt c s
  | saveCompletion dt fault => exact saveCompletion_makes dt s fault
  | restoreContextCompletion dt => exact restoreContextCompletion_makes dt s
  | restoreTableCompletion dt => exact restoreTableCompletion_makes dt s
  | deleteCompletion dt fault => exact deleteCompletion_makes dt s fault
  | compactCompletion dt fault => exact compactCompletion_makes dt s fault
  | eraseStoreCompletion dt fault => exact eraseStoreCompletion_makes dt s fault
  | leaseExpiry dt i => exact leaseExpiry_makes dt s i
  | signalTimerExpiry dt => exact signalTimerExpiry_makes dt s
  | lineGapTimerExpiry dt => exact lineGapTimerExpiry_makes dt s
  | acquisitionTimerExpiry dt => exact acquisitionTimerExpiry_makes dt s
  | holdoverDeadlineExpiry dt => exact holdoverDeadlineExpiry_makes dt s
  | lossTimerExpiry dt => exact lossTimerExpiry_makes dt s
  | readyRises dt i => exact readyRises_makes dt s i
  | readyFalls dt i => exact readyFalls_makes dt s i
  | transferCompletion dt i => exact transferCompletion_makes dt s i
  | stallTimerExpiry dt i => exact stallTimerExpiry_makes dt s i
  | cadenceExpiry dt => exact cadenceExpiry_makes dt s
  | generatedLinePlaced dt i => exact generatedLinePlaced_makes dt s i
  | returnReceptionBegins dt => exact returnReceptionBegins_makes dt s
  | returnPacket dt bytes => exact returnPacket_makes dt s bytes
  | returnIdle dt => exact returnIdle_makes dt s
  | returnPacketDropped dt bytes => exact returnPacketDropped_makes dt s bytes
  | linkTimerExpiry dt => exact linkTimerExpiry_makes dt s
  | holdInputRises dt => exact holdInputRises_makes dt s
  | holdInputFalls dt => exact holdInputFalls_makes dt s
  | transmissionBegins dt => exact transmissionBegins_makes dt s
  | idleIntervalExpiry dt => exact idleIntervalExpiry_makes dt s
  | transmissionCompletion dt cut => exact transmissionCompletion_makes dt s cut

/-- A step is a sequence of elementary changes. -/
theorem step_changes {s t : State} (h : step s = .next t) : Changes s t := by
  unfold step at h
  split at h
  · obtain rfl := by simpa using h
    exact .refl
  case h_2 c rest waiting =>
    obtain ⟨u, next, changes⟩ := exec_makes c { s with pending := rest }
    obtain rfl : u = t := by simpa [next] using h
    exact Changes.after changes (Changes.quiet ⟨rfl, rfl, rfl, rfl, rfl, rfl, rfl, rfl, rfl⟩)

/-- An invariant that every elementary change keeps is kept by every step. -/
theorem step_keeps {P : State → Prop} (keep : ∀ s t, Change s t → P s → P t) (s t : State) (hs : P s)
    (h : step s = .next t) : P t := (step_changes h).keep keep hs

end Sys2Proof.Machine
end

section
/-!
PROOFS. The six invariants: each is kept by every elementary change, and so by every step.
-/

namespace Sys2Proof.Machine

/-! ## Storage (R68, R106, R207) -/

theorem storageOk_iff {s : State} : StorageOk s ↔ BanksOk s.rs ∧ CurvesOk s.cu :=
  ⟨fun ok => ⟨⟨ok.bankA, ok.bankB⟩, ⟨ok.tables, ok.staging⟩⟩,
   fun ⟨banks, curves⟩ => ⟨banks.bankA, banks.bankB, curves.tables, curves.staging⟩⟩

theorem CurvesOk.initial : CurvesOk CorrectionUnit.initial :=
  ⟨fun t => by simpa [CorrectionUnit.initial] using curvesOk_nil, trivial⟩

theorem CurvesOk.withoutStagingOf {c : CorrectionUnit} (ok : CurvesOk c) (key : Byte) :
    CurvesOk (c.withoutStagingOf key) := by
  unfold CorrectionUnit.withoutStagingOf
  repeat' split
  · exact ⟨ok.tables, trivial⟩
  all_goals exact ok

theorem CurvesOk.releaseStaging {c : CorrectionUnit} (ok : CurvesOk c) : CurvesOk c.releaseStaging := by
  unfold CorrectionUnit.releaseStaging
  split
  · exact ⟨ok.tables, trivial⟩
  all_goals exact ok

theorem Change.keeps_storage (s t : State) (change : Change s t) (ok : StorageOk s) : StorageOk t := by
  rw [storageOk_iff] at ok ⊢
  obtain ⟨banks, curves⟩ := ok
  cases change with
  | quiet same => exact ⟨same.rs ▸ banks, same.cu ▸ curves⟩
  | closeSession => exact ⟨banks, curves.withoutStagingOf _⟩
  | correct inForm => exact ⟨banks, inForm curves⟩
  | store inForm => exact ⟨inForm banks, curves⟩
  | finishLoad => exact ⟨⟨banks.bankA, banks.bankB⟩, curves⟩
  | softReset => exact ⟨banks, curves.releaseStaging⟩
  | restart blocks inForm => exact ⟨inForm banks, blocks.cu ▸ CurvesOk.initial⟩
  | raise | reserve | fill | release | setClass | beginNotice | endNotice | session | openSession | openEdit | putEdit
  | closeEdit | releaseEdit | reveal | loadContext | ports | downlink => exact ⟨banks, curves⟩

/-- Settles O4. -/
theorem stepKeepsStorage : Obligations.StepKeepsStorage := step_keeps Change.keeps_storage

/-! ## Queues (R90, R142) -/

theorem queuesOk_iff {s : State} : QueuesOk s ↔ (∀ p : Fin 8, PortOk s.ports[p]) ∧ s.dn.buffer.length ≤ 4 :=
  ⟨fun ok => ⟨fun p => ⟨ok.ports p, ok.transfer p⟩, ok.passing⟩,
   fun ⟨ports, passing⟩ => ⟨fun p => (ports p).size, fun p => (ports p).line, passing⟩⟩

theorem AtReset.portOk {t : State} (blocks : AtReset t) (p : Fin 8) : PortOk t.ports[p] := by
  obtain ⟨ready, same⟩ := blocks.ports p
  exact same ▸ PortOk.initial ready

theorem Change.keeps_queues (s t : State) (change : Change s t) (ok : QueuesOk s) : QueuesOk t := by
  rw [queuesOk_iff] at ok ⊢
  obtain ⟨ports, passing⟩ := ok
  cases change with
  | quiet same => exact ⟨same.ports ▸ ports, same.buffer ▸ passing⟩
  | ports kept => exact ⟨fun p => kept p (ports p), passing⟩
  | downlink kept => exact ⟨ports, kept passing⟩
  | restart blocks => exact ⟨blocks.portOk, by simp [blocks.buffer]⟩
  | raise | reserve | fill | release | setClass | beginNotice | endNotice | session | openSession | closeSession
  | openEdit | putEdit | closeEdit | releaseEdit | reveal | loadContext | correct | store | finishLoad | softReset =>
    exact ⟨ports, passing⟩

/-- Settles O5. -/
theorem stepKeepsQueues : Obligations.StepKeepsQueues := step_keeps Change.keeps_queues

/-! ## The response queue (R176) -/

/-- The fill order lists each filled slot once. -/
structure QueueOrdered (q : ResponseQueue) : Prop where
  once   : q.order.Nodup
  filled : ∀ i : Fin 8, i ∈ q.order ↔ ∃ r, q.slots[i] = .filled r

theorem responsesOk_iff {s : State} : ResponsesOk s ↔ QueueOrdered s.rq :=
  ⟨fun ok => ⟨ok.once, ok.filled⟩, fun ok => ⟨ok.once, ok.filled⟩⟩

theorem ResponseQueue.freeSlot_free {q : ResponseQueue} {i : Fin 8} (free : q.freeSlot = some i) :
    q.slots[i] = .free := by
  simpa using List.find?_some free

namespace QueueOrdered

variable {q : ResponseQueue}

theorem initial : QueueOrdered ResponseQueue.initial := ⟨List.nodup_nil, fun i => by simp [ResponseQueue.initial]⟩

theorem reserve (ok : QueueOrdered q) {i : Fin 8} (free : q.freeSlot = some i) (key seq code : Byte) :
    QueueOrdered (q.reserve i key seq code) := by
  refine ⟨ok.once, fun j => (ok.filled j).trans ?_⟩
  show _ ↔ ∃ r, (upd q.slots i (.reserved key seq code))[j] = .filled r
  rw [upd_apply]
  split
  case isTrue same => subst same; simp [ResponseQueue.freeSlot_free free]
  case isFalse => rfl

theorem fill (ok : QueueOrdered q) (i : Fin 8) (r : Response) : QueueOrdered (q.fill i r) := by
  refine ⟨?_, fun j => ?_⟩
  · exact (ok.once.filter _).append (List.nodup_singleton i) (by simp)
  · show j ∈ q.order.filter (· != i) ++ [i] ↔ ∃ r', (upd q.slots i (.filled r))[j] = .filled r'
    rw [upd_apply]
    by_cases same : i = j
    · simp [same]
    · simp [same, ok.filled, Ne.symm same]

theorem release (ok : QueueOrdered q) (i : Fin 8) : QueueOrdered (q.release i) := by
  refine ⟨ok.once.filter _, fun j => ?_⟩
  show j ∈ q.order.filter (· != i) ↔ ∃ r', (upd q.slots i .free)[j] = .filled r'
  rw [upd_apply]
  by_cases same : i = j
  · simp [same]
  · simp [same, ok.filled, Ne.symm same]

end QueueOrdered

theorem Change.keeps_responses (s t : State) (change : Change s t) (ok : ResponsesOk s) : ResponsesOk t := by
  rw [responsesOk_iff] at ok ⊢
  cases change with
  | quiet same => exact same.rq ▸ ok
  | reserve free key seq code => exact ok.reserve free key seq code
  | fill i r => exact ok.fill i r
  | release i => exact ok.release i
  | softReset => exact .initial
  | restart blocks => exact blocks.rq ▸ .initial
  | raise | setClass | beginNotice | endNotice | session | openSession | closeSession | openEdit | putEdit | closeEdit
  | releaseEdit | reveal | loadContext | correct | store | finishLoad | ports | downlink => exact ok

/-- Settles O8. -/
theorem stepKeepsResponses : Obligations.StepKeepsResponses := step_keeps Change.keeps_responses

/-! ## The notice slots (R180, R181) -/

/-- What may stand in a slot: a count 1..255, a class but 3, and a carry only while the slot is sent. -/
structure PendingOk (cls : Fin 4) (p : Pending) : Prop where
  count : 1 ≤ p.count ∧ p.count ≤ 255
  cls   : cls ≠ 3
  carry : ∀ c, p.carry = some c → p.sending = true ∧ 1 ≤ c.count ∧ c.count ≤ 255

/-- The pending list lists each PENDING kind once, and each slot holds what it may. -/
structure SlotsOk (n : Notices) : Prop where
  once    : n.list.Nodup
  pending : ∀ k : NoticeKind, k ∈ n.list ↔ n.slots[k.idx].body ≠ none
  body    : ∀ k : NoticeKind, ∀ p, n.slots[k.idx].body = some p → PendingOk n.slots[k.idx].cls p

theorem noticesOk_iff {s : State} : NoticesOk s ↔ SlotsOk s.ns := by
  constructor
  · intro ok
    refine ⟨ok.once, ok.pending, fun k p present => ?_⟩
    obtain ⟨low, high, cls⟩ := ok.counted k p present
    exact ⟨⟨low, high⟩, cls, fun c => ok.carried k p c present⟩
  · intro ok
    refine ⟨ok.once, ok.pending, fun k p present => ?_, fun k p c present => (ok.body k p present).carry c⟩
    exact ⟨(ok.body k p present).count.1, (ok.body k p present).count.2, (ok.body k p present).cls⟩

theorem bump255_range {n : Nat} : 1 ≤ bump255 n ∧ bump255 n ≤ 255 := by simp [bump255]

namespace SlotsOk

variable {n : Notices}

/-- One slot replaced, with the pending list that follows it. -/
theorem put (ok : SlotsOk n) (k : NoticeKind) {sl : NoticeSlot} {list : List NoticeKind} (once : list.Nodup)
    (own : k ∈ list ↔ sl.body ≠ none) (others : ∀ j, j ≠ k → (j ∈ list ↔ j ∈ n.list))
    (body : ∀ p, sl.body = some p → PendingOk sl.cls p) : SlotsOk ⟨upd n.slots k.idx sl, list⟩ := by
  have at_ (j : NoticeKind) : (upd n.slots k.idx sl)[j.idx] = if j = k then sl else n.slots[j.idx] := by
    rw [upd_apply]
    exact if_congr ⟨fun h => (NoticeKind.idx_injective h).symm, fun h => by rw [h]⟩ rfl rfl
  refine ⟨once, fun j => ?_, fun j p => ?_⟩
  · show j ∈ list ↔ (upd n.slots k.idx sl)[j.idx].body ≠ none
    rw [at_]
    split
    case isTrue same => exact same ▸ own
    case isFalse other => exact (others j other).trans (ok.pending j)
  · show (upd n.slots k.idx sl)[j.idx].body = some p → PendingOk (upd n.slots k.idx sl)[j.idx].cls p
    rw [at_]
    split
    · exact body p
    · exact ok.body j p

/-- One slot replaced by a PENDING one where the kind was in the list. -/
theorem putSame (ok : SlotsOk n) (k : NoticeKind) {p p' : Pending} (present : n.slots[k.idx].body = some p)
    (body : PendingOk n.slots[k.idx].cls p') :
    SlotsOk { n with slots := upd n.slots k.idx { n.slots[k.idx] with body := some p' } } := by
  refine ok.put k ok.once ?_ (fun _ _ => Iff.rfl) fun q same => ?_
  · simpa using (ok.pending k).mpr (by simp [-Fin.getElem_fin, present])
  · obtain rfl : p' = q := by simpa using same
    exact body

theorem moved_once (ok : SlotsOk n) (k : NoticeKind) : (n.list.filter (· != k) ++ [k]).Nodup :=
  (ok.once.filter _).append (List.nodup_singleton k) (by simp)

theorem raise (ok : SlotsOk n) (d : Detail) : SlotsOk (n.raise d) := by
  rcases n.raise_cases d with ⟨-, -, same⟩ | ⟨empty, on, same⟩ | ⟨p, present, still, same⟩ |
    ⟨p, present, sending, -, same⟩ | ⟨p, c, present, sending, -, same⟩
  · rw [same]; exact ok
  · have absent : d.kind ∉ n.list := by simp [-Fin.getElem_fin, ok.pending, empty]
    rw [same]
    refine ok.put d.kind ?_ (by simp) (fun j other => by simp [other]) fun q new => ?_
    · exact ok.once.append (List.nodup_singleton _) (by simpa using absent)
    · obtain rfl : (⟨1, d, d, false, none⟩ : Pending) = q := by simpa using new
      exact ⟨by simp, on, by simp⟩
  · rw [same]
    have old := ok.body _ p present
    exact ok.putSame _ present ⟨bump255_range, old.cls, old.carry⟩
  · rw [same]
    have old := ok.body _ p present
    refine ok.put d.kind (ok.moved_once _) (by simp) (fun j other => by simp [other]) fun q new => ?_
    obtain rfl : { p with carry := some ⟨1, d, d⟩ } = q := by simpa using new
    exact ⟨old.count, old.cls, fun c carry => ⟨sending, by simp at carry; simp [← carry]⟩⟩
  · rw [same]
    have old := ok.body _ p present
    refine ok.putSame _ present ⟨old.count, old.cls, fun c' carry => ⟨sending, ?_⟩⟩
    obtain rfl : (⟨bump255 c.count, c.first, d⟩ : Carry) = c' := by simpa using carry
    exact bump255_range

/-- A slot emptied, and its kind gone from the list. -/
theorem empty (ok : SlotsOk n) (k : NoticeKind) (cls : Fin 4) :
    SlotsOk ⟨upd n.slots k.idx ⟨cls, none⟩, n.list.filter (· != k)⟩ :=
  ok.put k (ok.once.filter _) (by simp) (fun j other => by simp [other]) (by simp)

theorem setClass (ok : SlotsOk n) (k : NoticeKind) (c : Fin 4) : SlotsOk (n.setClass k c) := by
  unfold Notices.setClass
  split
  case isTrue => exact ok.empty k c
  case isFalse on =>
    refine ok.put k ok.once (ok.pending k) (fun _ _ => Iff.rfl) fun p present => ?_
    have old := ok.body k p present
    exact ⟨old.count, on, old.carry⟩

theorem beginSend (ok : SlotsOk n) (k : NoticeKind) : SlotsOk (n.beginSend k) := by
  refine ok.put k ok.once ?_ (fun _ _ => Iff.rfl) fun q sent => ?_
  · simpa using ok.pending k
  · obtain ⟨p, present, rfl⟩ := by simpa using sent
    have old := ok.body k p present
    exact ⟨old.count, old.cls, by simp⟩

theorem endSend (ok : SlotsOk n) (k : NoticeKind) : SlotsOk (n.endSend k) := by
  unfold Notices.endSend
  dsimp only
  split
  case h_1 => exact ok
  case h_2 p present =>
    have old := ok.body k p present
    split
    · split
      case h_1 => exact ok.empty k _
      case h_2 c carry =>
        obtain ⟨-, low, high⟩ := old.carry c carry
        exact ok.putSame k present ⟨⟨low, high⟩, old.cls, by simp⟩
    · exact ok

theorem emptied (n : Notices) : SlotsOk n.emptied :=
  ⟨List.nodup_nil, fun k => by simp [Notices.emptied], fun k p => by simp [Notices.emptied]⟩

theorem initial : SlotsOk Notices.initial :=
  ⟨List.nodup_nil, fun k => by cases k <;> simp [Notices.initial, NoticeKind.idx],
   fun k p => by cases k <;> simp [Notices.initial, NoticeKind.idx]⟩

end SlotsOk

theorem Change.keeps_notices (s t : State) (change : Change s t) (ok : NoticesOk s) : NoticesOk t := by
  rw [noticesOk_iff] at ok ⊢
  cases change with
  | quiet same => exact same.ns ▸ ok
  | raise d => exact ok.raise d
  | setClass k c => exact ok.setClass k c
  | beginNotice k => exact ok.beginSend k
  | endNotice k => exact ok.endSend k
  | softReset => exact .emptied _
  | restart blocks => exact blocks.ns ▸ .initial
  | reserve | fill | release | session | openSession | closeSession | openEdit | putEdit | closeEdit
  | releaseEdit | reveal | loadContext | correct | store | finishLoad | ports | downlink => exact ok

/-- Settles O9. -/
theorem stepKeepsNotices : Obligations.StepKeepsNotices := step_keeps Change.keeps_notices

/-! ## Sessions and what they own (R18, R70, R157) -/

theorem MapStore.withoutEditOf_owner {m : MapStore} {key : Byte} {e : EditBuffer}
    (present : (m.withoutEditOf key).edit = some e) : m.edit = some e ∧ e.owner ≠ key := by
  unfold MapStore.withoutEditOf at present
  split at present
  case h_1 b buffer =>
    split at present
    case isTrue => cases present
    case isFalse other =>
      obtain rfl : b = e := by simpa [buffer] using present
      exact ⟨buffer, other⟩
  case h_2 empty => simp [empty] at present

theorem CorrectionUnit.withoutStagingOf_owner {c : CorrectionUnit} {key k : Byte} {t : Fin 8} {cv : Curves}
    (owned : (c.withoutStagingOf key).staging = .owned k t cv) : c.staging = .owned k t cv ∧ k ≠ key := by
  unfold CorrectionUnit.withoutStagingOf at owned
  split at owned
  case h_1 k' t' cv' staging =>
    split at owned
    case isTrue => cases owned
    case isFalse other =>
      rw [staging] at owned
      obtain ⟨rfl, rfl, rfl⟩ : k' = k ∧ t' = t ∧ cv' = cv := by simpa using owned
      exact ⟨staging, other⟩
  all_goals simp_all

theorem MapStore.releaseEdit_edit (m : MapStore) : m.releaseEdit.edit = none := by
  unfold MapStore.releaseEdit
  split
  · rfl
  · assumption

theorem CorrectionUnit.releaseStaging_not_owned (c : CorrectionUnit) (key : Byte) (t : Fin 8) (cv : Curves) :
    c.releaseStaging.staging ≠ .owned key t cv := by
  unfold CorrectionUnit.releaseStaging
  split <;> simp_all

/-- A session that is open stays open where the slots keep the keys. -/
theorem State.opened_of_keys {s t : State} (keys : ∀ i : Fin 4, ∀ d, s.sessions[i] = some d →
    ∃ d', t.sessions[i] = some d' ∧ d'.key = d.key) {key : Byte} (h : s.opened key) : t.opened key := by
  obtain ⟨i, d, present, rfl⟩ := h
  obtain ⟨d', present', same⟩ := keys i d present
  exact ⟨i, d', present', same⟩

/-- The session slots alone: keys are not 0 and unique. -/
structure KeysOk (v : Vector (Option Session) 4) : Prop where
  nonzero : ∀ i : Fin 4, ∀ d, v[i] = some d → d.key ≠ 0
  unique  : ∀ i j : Fin 4, ∀ d e, v[i] = some d → v[j] = some e → d.key = e.key → i = j

/-- What is owned is owned by an open session. -/
structure OwnersOk (s : State) : Prop where
  editor : ∀ e, s.ms.edit = some e → s.opened e.owner
  stager : ∀ key t curves, s.cu.staging = .owned key t curves → s.opened key

theorem sessionsOk_iff {s : State} : SessionsOk s ↔ KeysOk s.sessions ∧ OwnersOk s :=
  ⟨fun ok => ⟨⟨ok.nonzero, ok.unique⟩, ⟨ok.editor, ok.stager⟩⟩,
   fun ⟨keys, owners⟩ => ⟨keys.nonzero, keys.unique, owners.editor, owners.stager⟩⟩

theorem KeysOk.free : KeysOk (Vector.replicate 4 none) := ⟨by simp, by simp⟩

/-- A slot takes a session under a key that no other slot has. -/
theorem KeysOk.put {v : Vector (Option Session) 4} (ok : KeysOk v) {i : Fin 4} {d : Session} (nonzero : d.key ≠ 0)
    (fresh : ∀ j, j ≠ i → ∀ e, v[j] = some e → e.key ≠ d.key) : KeysOk (upd v i (some d)) := by
  constructor
  · intro j e present
    rw [upd_apply] at present
    split at present
    · obtain rfl : d = e := by simpa using present
      exact nonzero
    · exact ok.nonzero j e present
  · intro j k e f hj hk same
    rw [upd_apply] at hj hk
    split at hj <;> split at hk
    case isTrue.isTrue => exact (‹i = j› : i = j) ▸ ‹i = k›
    case isTrue.isFalse other =>
      obtain rfl : d = e := by simpa using hj
      exact absurd same.symm (fresh k (Ne.symm other) f hk)
    case isFalse.isTrue other _ =>
      obtain rfl : d = f := by simpa using hk
      exact absurd same (fresh j (Ne.symm other) e hj)
    case isFalse.isFalse => exact ok.unique j k e f hj hk same

theorem KeysOk.free_slot {v : Vector (Option Session) 4} (ok : KeysOk v) (i : Fin 4) : KeysOk (upd v i none) := by
  have kept {j : Fin 4} {d : Session} (present : (upd v i none)[j] = some d) : v[j] = some d := by
    rw [upd_apply] at present
    split at present
    · cases present
    · exact present
  exact ⟨fun j d h => ok.nonzero j d (kept h), fun j k d e hj hk => ok.unique j k d e (kept hj) (kept hk)⟩

/-- Owners stay owners where sessions stay open and nothing is newly owned. -/
theorem OwnersOk.of {s t : State} (ok : OwnersOk s) (opened : ∀ key, s.opened key → t.opened key)
    (edit : ∀ e, t.ms.edit = some e → ∃ e', s.ms.edit = some e' ∧ e'.owner = e.owner)
    (staging : ∀ key u cv, t.cu.staging = .owned key u cv → ∃ u' cv', s.cu.staging = .owned key u' cv') :
    OwnersOk t := by
  constructor
  · intro e present
    obtain ⟨e', before, same⟩ := edit e present
    exact same ▸ opened _ (ok.editor e' before)
  · intro key u cv owned
    obtain ⟨u', cv', before⟩ := staging key u cv owned
    exact opened _ (ok.stager key u' cv' before)

theorem Change.keeps_sessions (s t : State) (change : Change s t) (ok : SessionsOk s) : SessionsOk t := by
  rw [sessionsOk_iff] at ok ⊢
  obtain ⟨keys, owners⟩ := ok
  have editSame : ∀ e, s.ms.edit = some e → ∃ e', s.ms.edit = some e' ∧ e'.owner = e.owner :=
    fun e present => ⟨e, present, rfl⟩
  have stagingSame : ∀ key u cv, s.cu.staging = .owned key u cv → ∃ u' cv', s.cu.staging = .owned key u' cv' :=
    fun key u cv owned => ⟨u, cv, owned⟩
  cases change with
  | quiet same =>
    refine ⟨same.sessions ▸ keys, owners.of (fun key h => ?_) (same.ms ▸ editSame) (same.cu ▸ stagingSame)⟩
    exact State.opened_of_keys (fun i d present => ⟨d, same.sessions ▸ present, rfl⟩) h
  | @session i d d' present key =>
    refine ⟨keys.put (key ▸ keys.nonzero i d present) fun j other e at_ same => ?_,
      owners.of (fun k h => ?_) editSame stagingSame⟩
    · exact other (keys.unique j i e d at_ present (same.trans key))
    · refine State.opened_of_keys (fun j e at_ => ?_) h
      show ∃ e', (upd s.sessions i (some d'))[j] = some e' ∧ e'.key = e.key
      rw [upd_apply]
      split
      case isTrue same =>
        subst same
        obtain rfl : d = e := by simpa [present] using at_
        exact ⟨d', rfl, key⟩
      case isFalse => exact ⟨e, at_, rfl⟩
  | @openSession i d nonzero fresh free =>
    refine ⟨keys.put nonzero fun j _ => fresh j, owners.of (fun k h => ?_) editSame stagingSame⟩
    refine State.opened_of_keys (fun j e at_ => ⟨e, ?_, rfl⟩) h
    show (upd s.sessions i (some d))[j] = some e
    rw [upd_apply]
    split
    case isTrue same => subst same; simp [free] at at_
    case isFalse => exact at_
  | @closeSession i d present =>
    have others {key : Byte} (h : s.opened key) (other : key ≠ d.key) :
        ({ s with ms := s.ms.withoutEditOf d.key, cu := s.cu.withoutStagingOf d.key,
                  sessions := upd s.sessions i none } : State).opened key := by
      obtain ⟨j, e, at_, rfl⟩ := h
      have apart : i ≠ j := by
        rintro rfl
        obtain rfl : d = e := by simpa [present] using at_
        exact other rfl
      exact ⟨j, e, (upd_other _ apart _).trans at_, rfl⟩
    refine ⟨keys.free_slot i, fun e buffer => ?_, fun key u cv owned => ?_⟩
    · obtain ⟨before, other⟩ := MapStore.withoutEditOf_owner buffer
      exact others (owners.editor e before) other
    · obtain ⟨before, other⟩ := CorrectionUnit.withoutStagingOf_owner owned
      exact others (owners.stager key u cv before) other
  | @openEdit key c copy running free unused owner =>
    refine ⟨keys, fun e buffer => ?_, owners.stager⟩
    obtain rfl : openedBuffer key c copy s.ms.contexts[c] = e := by simpa [MapStore.openEdit] using buffer
    exact owner
  | putEdit present owner target =>
    refine ⟨keys, owners.of (fun _ h => h) (fun e buffer => ?_) stagingSame⟩
    obtain rfl := by simpa [State.putEdit] using buffer
    exact ⟨_, present, owner.symm⟩
  | closeEdit => exact ⟨keys, owners.of (fun _ h => h) (by simp [MapStore.closeEdit]) stagingSame⟩
  | releaseEdit => exact ⟨keys, owners.of (fun _ h => h) (by simp [MapStore.releaseEdit_edit]) stagingSame⟩
  | reveal contexts edit => exact ⟨keys, owners.of (fun _ h => h) (edit ▸ editSame) stagingSame⟩
  | correct curves owner =>
    refine ⟨keys, owners.editor, fun key u cv owned => ?_⟩
    rcases owner key u cv owned with opened | ⟨u', cv', before⟩
    · exact opened
    · exact owners.stager key u' cv' before
  | softReset =>
    exact ⟨.free, by simp [MapStore.releaseEdit_edit],
      fun key u cv owned => absurd owned (s.cu.releaseStaging_not_owned key u cv)⟩
  | restart blocks =>
    exact ⟨blocks.sessions ▸ .free, by simp [blocks.ms, MapStore.initial],
      by simp [blocks.cu, CorrectionUnit.initial]⟩
  | raise | reserve | fill | release | setClass | beginNotice | endNotice | loadContext | store | finishLoad | ports
  | downlink => exact ⟨keys, owners.of (fun _ h => h) editSame stagingSame⟩

/-- Settles O7. -/
theorem stepKeepsSessions : Obligations.StepKeepsSessions := step_keeps Change.keeps_sessions

/-! ## The tile map (R4, R21, R28, R34) -/

/-- The Map Store alone: what is shown is READY, and a context is OPEN exactly while the buffer is taken for it. -/
structure ContextsOk (m : MapStore) : Prop where
  shown   : ∀ c : Fin 4, m.inUse c = true → m.contexts[c].status = .ready
  target  : ∀ e, m.edit = some e → m.contexts[e.target].status = .opened
  onlyOne : ∀ c : Fin 4, m.contexts[c].status = .opened → ∃ e, m.edit = some e ∧ e.target = c

/-- No load runs and nothing is edited outside its phase (R190, R201). -/
structure PhaseOk (s : State) : Prop where
  loading : s.rs.load ≠ none → s.phase = .starting
  noEdit  : s.phase = .starting → s.ms.edit = none

theorem mapOk_iff {s : State} : MapOk s ↔ ContextsOk s.ms ∧ PhaseOk s :=
  ⟨fun ok => ⟨⟨ok.shown, ok.target, ok.onlyOne⟩, ⟨ok.loading, ok.noEdit⟩⟩,
   fun ⟨contexts, phase⟩ => ⟨contexts.shown, contexts.target, contexts.onlyOne, phase.loading, phase.noEdit⟩⟩

namespace ContextsOk

variable {m : MapStore}

theorem initial : ContextsOk MapStore.initial :=
  ⟨by simp [MapStore.initial, MapStore.inUse, Selection.names], by simp [MapStore.initial],
   by simp [MapStore.initial, Context.initial]⟩

/-- What is shown changes to READY contexts. -/
theorem reveal (ok : ContextsOk m) {m' : MapStore} (contexts : m'.contexts = m.contexts) (edit : m'.edit = m.edit)
    (ready : ∀ c : Fin 4, m'.inUse c = true → m.inUse c = true ∨ m.contexts[c].status = .ready) : ContextsOk m' := by
  refine ⟨fun c used => ?_, ?_, ?_⟩
  · rw [contexts]; exact (ready c used).elim (ok.shown c) id
  · rw [edit, contexts]; exact ok.target
  · rw [edit, contexts]; exact ok.onlyOne

/-- The buffer is given up, and its context takes a status that is not OPEN; nothing shown is among the OPEN ones. -/
theorem leave (ok : ContextsOk m) {e : EditBuffer} (present : m.edit = some e) {x : Context}
    (status : x.status ≠ .opened) :
    ContextsOk { m with edit := none, contexts := upd m.contexts e.target x } := by
  refine ⟨fun c used => ?_, by simp, fun c opened => ?_⟩
  · have ready := ok.shown c used
    show (upd m.contexts e.target x)[c].status = .ready
    rw [upd_apply]
    split
    case isTrue same => subst same; simp [-Fin.getElem_fin, ok.target e present] at ready
    case isFalse => exact ready
  · change (upd m.contexts e.target x)[c].status = .opened at opened
    rw [upd_apply] at opened
    split at opened
    case isTrue => exact absurd opened status
    case isFalse other =>
      obtain ⟨e', present', same⟩ := ok.onlyOne c opened
      obtain rfl : e = e' := by simpa [present] using present'
      exact absurd same other

theorem releaseEdit (ok : ContextsOk m) : ContextsOk m.releaseEdit := by
  unfold MapStore.releaseEdit
  split
  case h_1 e present => exact ok.leave present (by cases e.prior <;> simp [PriorStatus.status])
  case h_2 => exact ok

theorem withoutEditOf (ok : ContextsOk m) (key : Byte) : ContextsOk (m.withoutEditOf key) := by
  rw [← MapStore.releaseEdit_of_owner]
  split
  · exact ok.releaseEdit
  · exact ok

theorem openEdit (ok : ContextsOk m) (key : Byte) {c : Fin 4} (copy : Bool) (free : m.edit = none)
    (unused : m.inUse c = false) : ContextsOk (m.openEdit key c copy) := by
  have at_ (x : Fin 4) : (m.openEdit key c copy).contexts[x].status = if c = x then .opened else m.contexts[x].status := by
    show (upd m.contexts c { m.contexts[c] with status := .opened })[x].status = _
    rw [upd_apply]
    split <;> rfl
  refine ⟨fun x used => ?_, fun e present => ?_, fun x opened => ?_⟩
  · have used : m.inUse x = true := used
    have apart : c ≠ x := by rintro rfl; simp [unused] at used
    rw [at_, if_neg apart]
    exact ok.shown x used
  · obtain rfl : openedBuffer key c copy m.contexts[c] = e := by simpa [MapStore.openEdit] using present
    rw [at_]
    exact if_pos rfl
  · rw [at_] at opened
    split at opened
    case isTrue same => exact ⟨_, rfl, same⟩
    case isFalse =>
      obtain ⟨e, present, -⟩ := ok.onlyOne x opened
      simp [free] at present

theorem putEdit (ok : ContextsOk m) {e e' : EditBuffer} (present : m.edit = some e) (target : e'.target = e.target) :
    ContextsOk { m with edit := some e' } := by
  refine ⟨ok.shown, fun b same => ?_, fun c opened => ?_⟩
  · obtain rfl : e' = b := by simpa using same
    have opened : ∀ c : Fin 4, c = e.target → m.contexts[c].status = .opened := by
      rintro _ rfl
      exact ok.target e present
    exact opened _ target
  · obtain ⟨b, present', same⟩ := ok.onlyOne c opened
    obtain rfl : e = b := by simpa [present] using present'
    exact ⟨e', rfl, target.trans same⟩

/-- A context made READY while nothing is edited (R131). -/
theorem load (ok : ContextsOk m) (free : m.edit = none) (c : Fin 4) (t : TileTable) (f : Rgb) :
    ContextsOk { m with contexts := upd m.contexts c ⟨.ready, t, f⟩ } := by
  have at_ (x : Fin 4) : (upd m.contexts c ⟨.ready, t, f⟩)[x].status = if c = x then .ready else m.contexts[x].status := by
    rw [upd_apply]
    split <;> rfl
  refine ⟨fun x used => ?_, by simp [free], fun x opened => ?_⟩
  · refine (at_ x).trans ?_
    split
    · rfl
    · exact ok.shown x used
  · have opened := (at_ x).symm.trans opened
    split at opened
    · cases opened
    · exact ok.onlyOne x opened

end ContextsOk

theorem PhaseOk.of {s t : State} (ok : PhaseOk s) (phase : t.phase = s.phase) (load : t.rs.load ≠ none → s.rs.load ≠ none)
    (edit : s.ms.edit = none → t.ms.edit = none) : PhaseOk t :=
  ⟨fun loading => phase.trans (ok.loading (load loading)), fun starting => edit (ok.noEdit (phase.symm.trans starting))⟩

theorem Change.keeps_map (s t : State) (change : Change s t) (ok : MapOk s) : MapOk t := by
  rw [mapOk_iff] at ok ⊢
  obtain ⟨contexts, phase⟩ := ok
  cases change with
  | quiet same => exact ⟨same.ms ▸ contexts, phase.of same.phase (same.rs ▸ id) (same.ms ▸ id)⟩
  | closeSession =>
    refine ⟨contexts.withoutEditOf _, phase.of rfl id fun free => ?_⟩
    simp [MapStore.withoutEditOf, free]
  | openEdit copy running free unused owner =>
    refine ⟨contexts.openEdit _ copy free unused, fun loading => phase.loading loading, fun starting => ?_⟩
    cases running.symm.trans starting
  | putEdit present owner target =>
    exact ⟨contexts.putEdit present target, phase.of rfl id fun free => by simp [free] at present⟩
  | closeEdit present => exact ⟨contexts.leave present (by simp), phase.of rfl id fun _ => rfl⟩
  | releaseEdit => exact ⟨contexts.releaseEdit, phase.of rfl id fun _ => s.ms.releaseEdit_edit⟩
  | reveal same edit ready => exact ⟨contexts.reveal same edit ready, phase.of rfl id (edit ▸ id)⟩
  | loadContext loading c t f =>
    exact ⟨contexts.load (phase.noEdit (phase.loading loading)) c t f, phase.of rfl id id⟩
  | store banks load => exact ⟨contexts, phase.of rfl load id⟩
  | finishLoad => exact ⟨contexts, fun loading => absurd rfl loading, fun starting => by cases starting⟩
  | softReset => exact ⟨contexts.releaseEdit, phase.of rfl id fun _ => s.ms.releaseEdit_edit⟩
  | restart blocks =>
    exact ⟨by rw [blocks.ms]; exact .initial, fun _ => blocks.phase, fun _ => by rw [blocks.ms]; rfl⟩
  | raise | reserve | fill | release | setClass | beginNotice | endNotice | session | openSession | correct | ports
  | downlink => exact ⟨contexts, phase.of rfl id id⟩

/-- Settles O6. -/
theorem stepKeepsMap : Obligations.StepKeepsMap := step_keeps Change.keeps_map

end Sys2Proof.Machine
end

section
/-!
PROOFS. The machine and its resets: a step takes the command at the front of its queue (log 2), the values right after
the release of reset, and what passes while the part is held in reset (R198, R202).
-/

namespace Sys2Proof.Machine

/-! ## A step -/

theorem step_cons (c : Instr) (rest : List Instr) (s : State) :
    step { s with pending := c :: rest } = exec c { s with pending := rest } := rfl

/-- Settles O1. -/
theorem stepTakesFrontCommand : Obligations.StepTakesFrontCommand := step_cons

/-! ## The state right after the release of reset -/

/-- Canonical storage without an entry reads as the identity everywhere (R68). -/
theorem curveEntry_nil (k : Nat) : curveEntry [] k = 4 * (k % 1024) + k % 1024 / 256 := rfl

theorem Notices.initial_body (k : NoticeKind) : Notices.initial.slots[k.idx].body = none := by cases k <;> rfl

theorem reset_contexts (c : Fin 4) : State.reset.ms.contexts[c] = Context.initial := by
  simp [State.reset, MapStore.initial]

theorem reset_ports (p : Fin 8) : State.reset.ports[p] = Port.initial false := by
  simp [State.reset, Config.readyAtReset]

theorem reset_tables (t : Fin 8) : State.reset.cu.tables[t] = [] := by
  simp [State.reset, CorrectionUnit.initial]

/-- Settles O2: the indexed items by the lemma that says what every one of their kind holds, the others by evaluation. -/
theorem releaseValues : Obligations.ReleaseValues := by
  refine ⟨fun c => ?contexts, rfl, rfl, rfl, rfl, rfl, fun t k _ => ?curves, rfl, ?tracker, rfl, fun p => ?ports, rfl,
    rfl, ?link, fun i => ?sessions, fun i => ?slots, rfl, Notices.initial_body, rfl, rfl, rfl, rfl, rfl, rfl⟩
  case contexts =>
    rw [reset_contexts]
    exact ⟨rfl, rfl, rfl⟩
  case curves =>
    rw [reset_tables]
    exact curveEntry_nil k
  case tracker => simp [State.reset, Tracker.initial, Damage.empty]
  case ports =>
    rw [reset_ports]
    simp [Port.initial]
  case link => decide
  case sessions => simp [State.reset]
  case slots => simp [State.reset, ResponseQueue.initial]

/-- Settles O3: each invariant of the reset values of its blocks. -/
theorem releaseIsSafe : Obligations.ReleaseIsSafe := by
  refine ⟨storageOk_iff.mpr ⟨⟨rfl, rfl⟩, CurvesOk.initial⟩, queuesOk_iff.mpr ⟨fun p => ?ports, ?passing⟩,
    mapOk_iff.mpr ⟨ContextsOk.initial, fun _ => rfl, fun _ => rfl⟩,
    sessionsOk_iff.mpr ⟨KeysOk.free, fun _ present => ?_, fun _ _ _ present => ?_⟩,
    responsesOk_iff.mpr QueueOrdered.initial, noticesOk_iff.mpr SlotsOk.initial⟩
  case ports =>
    rw [reset_ports]
    exact PortOk.initial false
  case passing => exact Nat.zero_le 4
  all_goals cases present

/-! ## The reset pin and the release -/

/-- The period of cadence code 5, 60 Hz (R97). -/
theorem codePeriod_five : codePeriod 5 = 16666 := by decide

/-- Settles O11: a cut-off store keeps nothing but its banks, so that both forms of the hold in reset are one. -/
theorem resetPinAndRelease : Obligations.ResetPinAndRelease := by
  intro dt cut s rs values v held
  have restarted (t : State) : t.restarted =
      { State.reset with
          now := t.now, ports := t.ports.map fun p => Port.initial p.ready, cadenceTimer := some (t.now + 16666),
          rs := RecordStore.initial t.rs.bankA t.rs.bankB, up := Uplink.initial t.up.holdIn t.now, out := t.out,
          pending := t.pending } := by
    rw [← codePeriod_five]; rfl
  have low : ((s.elapse dt).cutStore cut).heldInReset = held := by
    rw [State.heldInReset, restarted]; rfl
  refine ⟨congrArg Host.Outcome.next low, congrArg Host.Outcome.next low, fun holding => ?release⟩
  case release =>
    show execReleaseOfReset dt s = _
    rw [execReleaseOfReset, if_pos holding, restarted]
    rfl

/-! ## The hold in reset -/

/-- The commands that are a packet, or the beginning of one, on one of the two lanes. -/
def onLane (i : Instr) : Prop :=
  match i with
  | .returnReceptionBegins .. | .returnPacket .. | .returnIdle .. | .returnPacketDropped .. => True
  | _ => (forwardPacket i).isSome = true

/-- The commands that are a level of a pin, or the release of reset. -/
def isPin (i : Instr) : Prop :=
  match i with
  | .powerOn .. | .rstnLow .. | .releaseOfReset .. | .readyRises .. | .readyFalls .. | .holdInputRises ..
  | .holdInputFalls .. => True
  | _ => False

/-- What reaches a lane while the ports do not receive is lost (R198, R202). -/
theorem exec_lost {i : Instr} {s : State} (lane : onLane i) (deaf : ¬s.Receives i.elapsed) :
    exec i s = .next (s.elapse i.elapsed) := by
  cases i with
  | forwardPacketDropped | frameStart | line | frameEnd | idle | forwardUnknownKind | controlNotAddressed |
  unknownRequest
  | openSession | closeSession | keep | readStatus | cursorSet | cursorWrite | cursorRead | readTile | openEdit |
  setTile | clearTile | setFill | checkEdit | closeEdit | abandonEdit | selectContext | selectSequence |
  cancelSelect | hold | release | beginTable | endTable | abandonTable | setPort | forcePattern | setCadence |
  readPort | saveContext | saveTable | saveSettings | restoreContext | restoreTable | deleteRecord | compact |
  eraseStore | readStoreStatus | setNoticeClass | enumerate | reset
  | returnReceptionBegins | returnPacket | returnIdle | returnPacketDropped =>
    dsimp only [exec]
    exact State.receive_lost deaf _
  | powerOn | rstnLow | releaseOfReset | readyRises | readyFalls | holdInputRises | holdInputFalls
  | startupBankChoice | startupScan | startupRecordLoad | startupTidy | startupLoadCompletion | saveCompletion |
  restoreContextCompletion | restoreTableCompletion | deleteCompletion | compactCompletion | eraseStoreCompletion |
  leaseExpiry | signalTimerExpiry | lineGapTimerExpiry | acquisitionTimerExpiry | holdoverDeadlineExpiry |
  lossTimerExpiry | transferCompletion | stallTimerExpiry | cadenceExpiry | generatedLinePlaced | linkTimerExpiry |
  transmissionBegins | idleIntervalExpiry | transmissionCompletion =>
    exact nomatch lane

/-- What happens inside while the part is held in reset passes as time (R198). -/
theorem exec_held {i : Instr} {s : State} (inside : ¬onLane i) (free : ¬isPin i) (held : s.held = true) :
    exec i s = .next (s.elapse i.elapsed) := by
  cases i with
  | startupBankChoice | startupScan | startupRecordLoad | startupTidy | startupLoadCompletion | saveCompletion |
  restoreContextCompletion | restoreTableCompletion | deleteCompletion | compactCompletion | eraseStoreCompletion |
  leaseExpiry | signalTimerExpiry | lineGapTimerExpiry | acquisitionTimerExpiry | holdoverDeadlineExpiry |
  lossTimerExpiry | transferCompletion | stallTimerExpiry | cadenceExpiry | generatedLinePlaced | linkTimerExpiry |
  transmissionBegins | idleIntervalExpiry | transmissionCompletion =>
    dsimp only [exec]
    exact State.take_held held _ _
  | powerOn | rstnLow | releaseOfReset | readyRises | readyFalls | holdInputRises | holdInputFalls =>
    exact absurd trivial free
  | returnReceptionBegins | returnPacket | returnIdle | returnPacketDropped =>
    exact absurd trivial inside
  | forwardPacketDropped | frameStart | line | frameEnd | idle | forwardUnknownKind | controlNotAddressed |
  unknownRequest
  | openSession | closeSession | keep | readStatus | cursorSet | cursorWrite | cursorRead | readTile | openEdit |
  setTile | clearTile | setFill | checkEdit | closeEdit | abandonEdit | selectContext | selectSequence |
  cancelSelect | hold | release | beginTable | endTable | abandonTable | setPort | forcePattern | setCadence |
  readPort | saveContext | saveTable | saveSettings | restoreContext | restoreTable | deleteRecord | compact |
  eraseStore | readStoreStatus | setNoticeClass | enumerate | reset =>
    exact absurd rfl inside

/-- Settles O12: a command on a lane is lost where the ports do not receive, any other but a pin where time alone
passes. -/
theorem heldInResetOnlyTimePasses : Obligations.HeldInResetOnlyTimePasses := by
  intro i s passed
  refine ⟨fun held other => ?held, fun moment lane => ?moment⟩
  case moment =>
    refine exec_lost ?_ fun heard => heard.2 moment
    cases i <;> exact lane
  case held =>
    have free : ¬isPin i := by
      intro pin
      cases i <;> first | exact pin | exact other
    by_cases lane : onLane i
    · exact exec_lost lane fun heard => by simp [heard.1] at held
    · exact exec_held lane free held

end Sys2Proof.Machine
end

section
/-!
PROOFS. The start-up load: the bank chosen (R129), the scan (R130), the records loaded (R131), the end of the load (R132,
R133) and its report (R190, R192).
-/

namespace Sys2Proof.Machine

section
variable {dt : Nat} {s : State} {l : Load}

/-! ## The bank chosen (R108, R129) -/

theorem State.atStep_of_load (loading : s.rs.load = some l) (step : LoadStep) :
    s.atStep step = { s with rs := { s.rs with load := some { l with step := step } } } := by
  simp only [State.atStep, loading, Option.map_some]

theorem headerActive_iff {c : Cells Word} :
    headerActive c = true ↔ bankRead c 0 = 0xC35A ∧ bankRead c 2 = 0x00FF := by
  simp [headerActive, marker, wordActive]

theorem newer_iff {g1 g2 : Word} : newer g1 g2 = true ↔ 1 ≤ (g1 - g2).toNat ∧ (g1 - g2).toNat ≤ 32767 := by
  simp [newer]

theorem exec_startupBankChoice (released : s.held = false) (loading : s.rs.load = some l) (step : l.step = .headers)
    (fault : Option Mishap) : exec (.startupBankChoice dt fault) s = .next ((s.elapse dt).chooseBank fault) := by
  show execStartupBankChoice dt fault s = _
  rw [execStartupBankChoice, State.take_released released]
  simp only [State.elapse_rs, loading, step, if_true]

theorem State.chooseBank_active {b : BankId} (active : s.rs.choice = some b) (loading : s.rs.load = some l)
    (fault : Option Mishap) :
    s.chooseBank fault =
      { s with rs := { s.rs with active := b, generation := bankRead (s.rs.bank b) 1,
                                 load := some { l with step := .scan } } } := by
  simp only [State.chooseBank, active, State.atStep, loading]
  rfl

theorem State.chooseBank_erased (none_active : s.rs.choice = none) (fault : Option Mishap) {r : RecordStore}
    (made : s.rs.perform fault 0 (.erase .A :: freshHeader .A 1) = (r, none)) :
    s.chooseBank fault = { s with rs := r.emptied }.atStep .scan := by
  simp only [State.chooseBank, none_active, made]

theorem State.chooseBank_failed (none_active : s.rs.choice = none) (fault : Option Mishap) {r : RecordStore}
    {f : VerifyFailure} (failed : s.rs.perform fault 0 (.erase .A :: freshHeader .A 1) = (r, some f)) :
    s.chooseBank fault =
      ({ s with rs := { r.unusable with
                          load := r.load.map fun l => { l with step := .scan, skipScan := true } } } : State).raise
        (.storeFault .writeFault f.bank f.addr none) := by
  simp only [State.chooseBank, none_active, failed]
  rfl

theorem RecordStore.perform_load (m : Option Mishap) (i : Nat) (as : List Access) (r : RecordStore) :
    (RecordStore.perform m i as r).1.load = r.load := by
  obtain ⟨a, b, same⟩ := RecordStore.perform_eq m i as r
  rw [same]

/-- An erasure and a fresh header made as they should. -/
theorem RecordStore.perform_fresh (r : RecordStore) :
    r.perform none 0 (.erase .A :: freshHeader .A 1) =
      ({ r with bankA := [(0, 0xC35A), (1, 1), (2, 0x00FF)] }, none) := by
  simp [RecordStore.perform, freshHeader, Access.result, Access.failure, Access.bank, Ending.ofFault,
    RecordStore.setBank, RecordStore.bank, StateUse.reading, bankRead, cellRead, cellWrite, erased, marker, wordActive]

/-- Settles O13: the six cases are those of `RecordStore.choice`, and of what the erasure comes to. -/
theorem startupBankChoice : Obligations.StartupBankChoice := by
  intro dt fault l s released loading step chosen activeA activeB gA gB
  rw [exec_startupBankChoice released loading step]
  have ofActive {b : BankId} (active : s.rs.choice = some b) :
      (s.elapse dt).chooseBank fault = chosen b (bankRead (s.rs.bank b) 1) :=
    State.chooseBank_active (s := s.elapse dt) active loading fault
  have isA {P : Prop} : (activeA → P) ↔ (headerActive s.rs.bankA = true → P) := by rw [headerActive_iff]
  have notA {P : Prop} : (¬activeA → P) ↔ (headerActive s.rs.bankA = false → P) := by
    rw [← Bool.not_eq_true, headerActive_iff]
  have isB {P : Prop} : (activeB → P) ↔ (headerActive s.rs.bankB = true → P) := by rw [headerActive_iff]
  have notB {P : Prop} : (¬activeB → P) ↔ (headerActive s.rs.bankB = false → P) := by
    rw [← Bool.not_eq_true, headerActive_iff]
  simp only [isA, notA, isB, notB]
  have noneActive (a : headerActive s.rs.bankA = false) (b : headerActive s.rs.bankB = false) :
      (s.elapse dt).rs.choice = none := by simp [RecordStore.choice, a, b]
  refine ⟨fun a b => ?onlyA, fun a b => ?onlyB, fun a b later => ?newerB, fun a b earlier => ?newerA,
    fun a b made => ?erased, fun r f a b failed => ?failed⟩
  case onlyA => exact congrArg _ (ofActive (b := .A) (by simp [RecordStore.choice, a, b]))
  case onlyB => exact congrArg _ (ofActive (b := .B) (by simp [RecordStore.choice, a, b]))
  case newerB =>
    have newest : newer (bankRead s.rs.bankB 1) (bankRead s.rs.bankA 1) = true := newer_iff.mpr later
    exact congrArg _ (ofActive (b := .B) (by simp [RecordStore.choice, a, b, headerGeneration, newest]))
  case newerA =>
    have older : newer (bankRead s.rs.bankB 1) (bankRead s.rs.bankA 1) = false :=
      Bool.eq_false_iff.mpr (mt newer_iff.mp earlier)
    exact congrArg _ (ofActive (b := .A) (by simp [RecordStore.choice, a, b, headerGeneration, older]))
  case erased =>
    subst made
    rw [State.chooseBank_erased (noneActive a b) none (RecordStore.perform_fresh _)]
    simp only [State.atStep, State.elapse_rs, RecordStore.emptied, loading]
    rfl
  case failed =>
    rw [State.chooseBank_failed (noneActive a b) fault failed]
    have kept : r.load = some l := by
      rw [← loading, ← RecordStore.perform_load fault 0 _ s.rs, failed]
    rw [kept]
    rfl

end

/-! ## The scan (R130) -/

theorem recordFits_iff {a len : Nat} :
    recordFits a len = true ↔ 1 ≤ len ∧ len ≤ 3200 ∧ a + 4 + len ≤ 32768 := by
  simp only [recordFits, Bool.and_eq_true, decide_eq_true_eq, and_assoc]
  rfl

section
variable {b : BankId} {c : Cells Word} {n a : Nat} {sc : Scan}

theorem Scan.run_within (within : a < 32768) :
    Scan.run b c (n + 1) a sc =
      let len := (bankRead c (a + 2)).toNat
      if bankRead c a = 0xFFFF then { sc with append := a }
      else if bankRead c a = 0x0FFF ∨ bankRead c a = 0x00FF ∨ bankRead c a = 0x0000 then
        if recordFits a len then
          Scan.run b c n (a + 4 + len) (if bankRead c a = 0x00FF then sc.note b c a len else sc)
        else sc.endFull b a
      else sc.endFull b a := by
  rw [Scan.run]
  exact if_neg (Nat.not_le.mpr within)

theorem Scan.run_erased (within : a < 32768) (state : bankRead c a = 0xFFFF) :
    Scan.run b c (n + 1) a sc = { sc with append := a } := by
  rw [Scan.run_within within]
  exact if_pos state

theorem Scan.run_passed (within : a < 32768) (state : bankRead c a = 0x0FFF ∨ bankRead c a = 0x0000)
    (fits : recordFits a (bankRead c (a + 2)).toNat = true) :
    Scan.run b c (n + 1) a sc = Scan.run b c n (a + 4 + (bankRead c (a + 2)).toNat) sc := by
  rw [Scan.run_within within]
  rcases state with state | state <;> simp [state, fits]

theorem Scan.run_valid (within : a < 32768) (state : bankRead c a = 0x00FF)
    (fits : recordFits a (bankRead c (a + 2)).toNat = true) :
    Scan.run b c (n + 1) a sc =
      Scan.run b c n (a + 4 + (bankRead c (a + 2)).toNat) (sc.note b c a (bankRead c (a + 2)).toNat) := by
  rw [Scan.run_within within]
  simp [state, fits]

theorem Scan.run_unfit (within : a < 32768) (written : bankRead c a ≠ 0xFFFF)
    (fits : recordFits a (bankRead c (a + 2)).toNat = false) : Scan.run b c (n + 1) a sc = sc.endFull b a := by
  rw [Scan.run_within within]
  simp only [written, fits, if_false, Bool.false_eq_true, ite_self]

theorem Scan.run_unnamed (within : a < 32768) (written : bankRead c a ≠ 0xFFFF) (filling : bankRead c a ≠ 0x0FFF)
    (valid : bankRead c a ≠ 0x00FF) (superseded : bankRead c a ≠ 0x0000) :
    Scan.run b c (n + 1) a sc = sc.endFull b a := by
  rw [Scan.run_within within]
  simp only [written, filling, valid, superseded, if_false, or_self]

theorem Scan.note_unknown {len : Nat} (unknown : keyOfWord (bankRead c (a + 1)) = none) :
    sc.note b c a len = { sc with faults := sc.faults ++ [.storeFault .badContent b a none] } := by
  simp only [Scan.note, unknown]

theorem Scan.note_known {len : Nat} {k : RecKey} (known : keyOfWord (bankRead c (a + 1)) = some k) :
    sc.note b c a len =
      { sc with
          directory := upd sc.directory k.idx (some ⟨a, len, !recordIntact c a len⟩)
          stale := match sc.directory[k.idx] with | some e => insertNat e.addr sc.stale | none => sc.stale
          faults := if !recordIntact c a len then sc.faults ++ [.storeFault .checkFail b a (some k)]
                    else sc.faults } := by
  simp only [Scan.note, known] <;> rfl

end

section
variable {dt : Nat} {s : State} {l : Load}

theorem RecordStore.scanned_of_load {r : RecordStore} (loading : r.load = some l) (sc : Scan) :
    r.scanned sc =
      let r' := { r with append := sc.append, full := sc.full, directory := sc.directory }
      { r' with load := some { l with step := .records r'.toLoad, stale := sc.stale } } := by
  simp only [RecordStore.scanned, loading]
  rfl

theorem exec_startupScan (released : s.held = false) (loading : s.rs.load = some l) (step : l.step = .scan) :
    exec (.startupScan dt) s = .next
      (if l.skipScan then (s.elapse dt).atStep (.records [])
       else ({ s.elapse dt with rs := s.rs.scanned s.rs.scan } : State).raiseAll s.rs.scan.faults) := by
  show execStartupScan dt s = _
  rw [execStartupScan, State.take_released released]
  simp only [State.elapse_rs, loading, step, if_true]

end

/-- Settles O14: one record by the branch of `Scan.run` that its state and length select. -/
theorem startupScanNotesTheRecords : Obligations.StartupScanNotesTheRecords := by
  refine ⟨?record, ?scan⟩
  case record =>
    intro b c n a sc within st len fits
    have fits_iff : fits ↔ recordFits a len = true := recordFits_iff.symm
    rw [fits_iff, Bool.not_eq_true]
    refine ⟨Scan.run_erased within, Scan.run_passed within, fun valid fit unknown => ?unknown,
      fun k valid fit known => ?known, fun state unfit => ?unfit, Scan.run_unnamed within⟩
    case unknown => exact (Scan.run_valid within valid fit).trans (by rw [Scan.note_unknown unknown])
    case known => exact (Scan.run_valid within valid fit).trans (by rw [Scan.note_known known]; rfl)
    case unfit =>
      refine Scan.run_unfit within (fun erased => ?_) unfit
      simp [st, erased] at state
  case scan =>
    intro dt l s released loading step start sc r
    rw [exec_startupScan released loading step]
    refine ⟨fun scanned => ?scanned, fun skipped => ?skipped⟩
    case scanned =>
      refine congrArg _ ((if_neg (by simp [scanned])).trans ?_)
      rw [RecordStore.scanned_of_load loading]
      rfl
    case skipped =>
      refine congrArg _ ((if_pos skipped).trans ?_)
      exact State.atStep_of_load (s := s.elapse dt) loading _

end Sys2Proof.Machine
end

section
/-!
PROOFS. The settings record (R207): what its words spell; and the record loads of the start-up load (R131).
-/

namespace Sys2Proof.Machine

/-! ## Named values by their codes -/

theorem boolOf_eq_some {n : Nat} {b : Bool} : boolOf n = some b ↔ n = if b then 1 else 0 := by
  rcases n with _ | _ | n <;> cases b <;> simp [boolOf]

theorem lossOf_eq_some {n : Nat} {l : LossPolicy} : lossOf n = some l ↔ n = lossCode l := by
  rcases n with _ | _ | _ | n <;> cases l <;> simp [lossOf, lossCode]

theorem patternOf_eq_some {n : Nat} {k : Pattern} : patternOf n = some k ↔ n = patternCode k := by
  rcases n with _ | _ | _ | _ | n <;> cases k <;> simp [patternOf, patternCode]

theorem forcedOf_eq_some {n : Nat} {f : Option Pattern} : forcedOf n = some f ↔ n = forcedCode f := by
  cases n with
  | zero => cases f <;> simp [forcedOf, forcedCode]
  | succ n =>
    cases f with
    | none => simp [forcedOf, forcedCode]
    | some k => simpa [forcedOf, forcedCode] using patternOf_eq_some

theorem lossCode_le (l : LossPolicy) : lossCode l ≤ 2 := by cases l <;> decide
theorem patternCode_le (k : Pattern) : patternCode k ≤ 3 := by cases k <;> decide
theorem forcedCode_le (f : Option Pattern) : forcedCode f ≤ 4 := by
  cases f with
  | none => exact Nat.zero_le 4
  | some k => exact Nat.succ_le_succ (patternCode_le k)

/-! ## A port's word -/

/-- The value a port's configuration is spelt by. -/
def PortConfig.value (c : PortConfig) : Nat :=
  4096 * (if c.enabled then 1 else 0) + 256 * lossCode c.loss + 16 * patternCode c.pattern + forcedCode c.forced

theorem portOfWord_eq_some {w : Word} {c : PortConfig} : portOfWord w = some c ↔ w.toNat = c.value := by
  have bits : portOfWord w = some c ↔
      bitsOf w 15 12 = (if c.enabled then 1 else 0) ∧ bitsOf w 11 8 = lossCode c.loss ∧
        bitsOf w 7 4 = patternCode c.pattern ∧ bitsOf w 3 0 = forcedCode c.forced := by
    rw [← boolOf_eq_some, ← lossOf_eq_some, ← patternOf_eq_some, ← forcedOf_eq_some]
    unfold portOfWord
    constructor
    · intro read
      split at read
      next e l p f he hl hp hf =>
        obtain rfl := Option.some.inj read
        exact ⟨he, hl, hp, hf⟩
      next => cases read
    · rintro ⟨he, hl, hp, hf⟩
      simp only [he, hl, hp, hf]
  have enabled : (if c.enabled then 1 else 0) ≤ 1 := by cases c.enabled <;> decide
  have loss := lossCode_le c.loss
  have pattern := patternCode_le c.pattern
  have forced := forcedCode_le c.forced
  have word := w.isLt
  rw [bits, PortConfig.value]
  simp only [bitsOf]
  generalize (if c.enabled then 1 else 0) = e at *
  omega

/-! ## The start selection -/

/-- The word of a list of start entries that a context or count is in (R207). -/
theorem startEntry_spelt (counts : List Word) (w15 : Word) (i : Nat) (e : SeqEntry) :
    startEntry counts w15 i = e ↔
      e.ctx.1 = w15.toNat / 4 ^ (7 - i % 8) % 4 ∧
        e.count = (if i % 2 = 0 then (counts.getD (i / 2) 0).toNat / 256 else (counts.getD (i / 2) 0).toNat % 256) := by
  obtain ⟨c, n⟩ := e
  simp only [startEntry, SeqEntry.mk.injEq, Fin.ext_iff, highByte, lowByte]
  exact and_congr eq_comm eq_comm

theorem map_range_eq_iff {α : Type} {f : Nat → α} {n : Nat} {l : List α} :
    (List.range n).map f = l ↔ l.length = n ∧ ∀ i x, l[i]? = some x → f i = x := by
  constructor
  · rintro rfl
    refine ⟨by simp, fun i x at_ => ?_⟩
    simp only [List.getElem?_map, Option.map_eq_some_iff, List.getElem?_eq_some_iff] at at_
    obtain ⟨j, ⟨_, rfl⟩, rfl⟩ := at_
    simp
  · rintro ⟨rfl, same⟩
    refine List.ext_getElem (by simp) fun i _ within => ?_
    simpa using same i _ (List.getElem?_eq_getElem within)

/-- The start selection by its kind code. -/
theorem startOfWords_eq_some {w8 w15 : Word} {counts : List Word} {start : Option Target} :
    startOfWords w8 counts w15 = some start ↔
      match start with
      | none => bitsOf w8 9 8 = 0
      | some (.context c) => bitsOf w8 9 8 = 1 ∧ c = (startEntry counts w15 0).ctx
      | some (.sequence es) =>
        bitsOf w8 9 8 = 2 ∧ es.length = bitsOf w8 12 10 + 1 ∧
          ∀ i e, es[i]? = some e → startEntry counts w15 i = e ∧ 1 ≤ e.count := by
  have lt : bitsOf w8 9 8 < 4 := Nat.mod_lt _ (by decide)
  unfold startOfWords
  match kind : bitsOf w8 9 8, lt with
  | 0, _ => cases start with
    | none => simp
    | some t => cases t <;> simp
  | 1, _ => cases start with
    | none => simp
    | some t => cases t <;> simp [eq_comm]
  | 3, _ => cases start with
    | none => simp
    | some t => cases t <;> simp
  | 2, _ => cases start with
    | none => simp
    | some t => cases t with
      | context c => simp
      | sequence es =>
        have counted : ∀ l : List SeqEntry,
            (l.all fun e : SeqEntry => decide (0 < e.count)) = true ↔
              ∀ (i : Nat) (e : SeqEntry), l[i]? = some e → 1 ≤ e.count := by
          intro l
          simp only [List.all_eq_true, decide_eq_true_eq, List.mem_iff_getElem?]
          exact ⟨fun h i e at_ => h e ⟨i, at_⟩, fun h e ⟨i, at_⟩ => h i e at_⟩
        simp only [Option.ite_none_right_eq_some, Option.some.injEq, Target.sequence.injEq, true_and]
        constructor
        · rintro ⟨positive, same⟩
          rw [same] at positive
          obtain ⟨length, entries⟩ := map_range_eq_iff.mp same
          exact ⟨length, fun i e at_ => ⟨entries i e at_, (counted es).mp positive i e at_⟩⟩
        · rintro ⟨length, entries⟩
          have same := map_range_eq_iff.mpr ⟨length, fun i e at_ => (entries i e at_).1⟩
          rw [same]
          exact ⟨(counted es).mpr fun i e at_ => (entries i e at_).2, rfl⟩

/-! ## The sixteen words -/

/-- The items of the settings as the words spell them. -/
structure SettingsSpelt (ws : List Word) (st : Settings) : Prop where
  ports   : ∀ p : Fin 8, portOfWord (ws.getD p.1 0) = some st.ports[p]
  cadence : st.cadence = bitsOf (ws.getD 8 0) 3 0
  unused  : bitsOf (ws.getD 8 0) 15 13 = 0 ∧ bitsOf (ws.getD 8 0) 7 4 = 0
  classes : ∀ k : Fin 16, st.classes[k] = classOf (ws.getD 9 0) (ws.getD 10 0) k
  start   : startOfWords (ws.getD 8 0) ((ws.drop 11).take 4) (ws.getD 15 0) = some st.start

theorem settingsOfBody_length {ws : List Word} {st : Settings} (spelt : settingsOfBody ws = some st) :
    ws.length = 16 := by
  unfold settingsOfBody at spelt
  split at spelt
  · rfl
  · cases spelt

theorem settingsOfBody_eq_some {ws : List Word} {st : Settings} (length : ws.length = 16) :
    settingsOfBody ws = some st ↔ SettingsSpelt ws st := by
  match ws, length with
  | [p0, p1, p2, p3, p4, p5, p6, p7, w8, w9, w10, w11, w12, w13, w14, w15], _ =>
  constructor
  · intro spelt
    unfold settingsOfBody at spelt
    dsimp only at spelt
    split at spelt
    next c0 c1 c2 c3 c4 c5 c6 c7 start h0 h1 h2 h3 h4 h5 h6 h7 hs =>
      split at spelt
      next unused =>
        obtain rfl := Option.some.inj spelt
        refine ⟨fun p => ?ports, rfl, unused, fun k => by simp, hs⟩
        fin_cases p
        exacts [h0, h1, h2, h3, h4, h5, h6, h7]
      next => cases spelt
    next => cases spelt
  · intro spelt
    obtain ⟨port, cadence, unused, classes, start⟩ := spelt
    have h0 : portOfWord p0 = some st.ports[0] := port 0
    have h1 : portOfWord p1 = some st.ports[1] := port 1
    have h2 : portOfWord p2 = some st.ports[2] := port 2
    have h3 : portOfWord p3 = some st.ports[3] := port 3
    have h4 : portOfWord p4 = some st.ports[4] := port 4
    have h5 : portOfWord p5 = some st.ports[5] := port 5
    have h6 : portOfWord p6 = some st.ports[6] := port 6
    have h7 : portOfWord p7 = some st.ports[7] := port 7
    have hs : startOfWords w8 [w11, w12, w13, w14] w15 = some st.start := start
    have hu : bitsOf w8 15 13 = 0 ∧ bitsOf w8 7 4 = 0 := unused
    have hc : Vector.ofFn (classOf w9 w10) = st.classes :=
      Vector.ext fun k within => by simpa using (classes ⟨k, within⟩).symm
    have hp : #v[st.ports[0], st.ports[1], st.ports[2], st.ports[3], st.ports[4], st.ports[5], st.ports[6],
        st.ports[7]] = st.ports :=
      Vector.ext fun p within => by
        match p, within with
        | 0, _ | 1, _ | 2, _ | 3, _ | 4, _ | 5, _ | 6, _ | 7, _ => rfl
    simp only [settingsOfBody, h0, h1, h2, h3, h4, h5, h6, h7, hs, if_pos hu, hc, hp]
    rw [← show st.cadence = bitsOf w8 3 0 from cadence]

/-! ## The items as R207 lays them out -/

theorem bitsOf_nibble (w : Word) : bitsOf w 3 0 = w.toNat % 16 := by simp [bitsOf]

theorem bitsOf_unused (w : Word) :
    bitsOf w 15 13 = 0 ∧ bitsOf w 7 4 = 0 ↔ w.toNat / 16 % 16 = 0 ∧ w.toNat / 8192 = 0 := by
  have := w.isLt
  simp only [bitsOf]
  omega

theorem classOf_val (ws : List Word) (k : Fin 16) :
    (classOf (ws.getD 9 0) (ws.getD 10 0) k).1 = (ws.getD (9 + k.1 / 8) 0).toNat / 4 ^ (7 - k.1 % 8) % 4 := by
  have word : (if k.1 < 8 then ws.getD 9 0 else ws.getD 10 0) = ws.getD (9 + k.1 / 8) 0 := by
    split
    next low => rw [Nat.div_eq_of_lt low]
    next high => rw [show k.1 / 8 = 1 by omega]
  simp only [classOf, word]

/-- The count words of a settings record are its words 11 to 14. -/
theorem countWord (ws : List Word) {i : Nat} (within : i < 8) :
    ((ws.drop 11).take 4).getD (i / 2) 0 = ws.getD (11 + i / 2) 0 := by
  have : i / 2 < 4 := by omega
  simp [List.getD_eq_getElem?_getD, this]

theorem startEntry_of_settings (ws : List Word) {i : Nat} (within : i < 8) (e : SeqEntry) :
    startEntry ((ws.drop 11).take 4) (ws.getD 15 0) i = e ↔
      e.ctx.1 = (ws.getD 15 0).toNat / 4 ^ (7 - i) % 4 ∧
        e.count = (if i % 2 = 0 then (ws.getD (11 + i / 2) 0).toNat / 256
                   else (ws.getD (11 + i / 2) 0).toNat % 256) := by
  rw [startEntry_spelt, countWord ws within, Nat.mod_eq_of_lt within]

theorem startOfWords_of_settings {ws : List Word} {start : Option Target} :
    startOfWords (ws.getD 8 0) ((ws.drop 11).take 4) (ws.getD 15 0) = some start ↔
      match start with
      | none => (ws.getD 8 0).toNat / 256 % 4 = 0
      | some (.context c) => (ws.getD 8 0).toNat / 256 % 4 = 1 ∧ c.1 = (ws.getD 15 0).toNat / 16384
      | some (.sequence es) =>
        (ws.getD 8 0).toNat / 256 % 4 = 2 ∧ es.length = (ws.getD 8 0).toNat / 1024 % 8 + 1 ∧
          ∀ i e, es[i]? = some e →
            (e.ctx.1 = (ws.getD 15 0).toNat / 4 ^ (7 - i) % 4 ∧
              e.count = (if i % 2 = 0 then (ws.getD (11 + i / 2) 0).toNat / 256
                         else (ws.getD (11 + i / 2) 0).toNat % 256)) ∧ 1 ≤ e.count := by
  have kind : bitsOf (ws.getD 8 0) 9 8 = (ws.getD 8 0).toNat / 256 % 4 := rfl
  have entries : bitsOf (ws.getD 8 0) 12 10 = (ws.getD 8 0).toNat / 1024 % 8 := rfl
  rw [startOfWords_eq_some, kind, entries]
  match start with
  | none => exact Iff.rfl
  | some (.context c) =>
    have := (ws.getD 15 0).isLt
    have first : (startEntry ((ws.drop 11).take 4) (ws.getD 15 0) 0).ctx.1 = (ws.getD 15 0).toNat / 16384 := by
      simp only [startEntry, show 4 ^ (7 - 0 % 8) = 16384 from rfl]
      omega
    exact and_congr_right fun _ => by rw [Fin.ext_iff, first]
  | some (.sequence es) =>
    refine and_congr_right fun _ => and_congr_right fun length =>
      forall_congr' fun i => forall_congr' fun e => imp_congr_right fun at_ => and_congr_left' ?_
    have : i < es.length := (List.getElem?_eq_some_iff.mp at_).1
    exact startEntry_of_settings ws (by omega) e

/-! ## The record loads (R131) -/

section
variable {dt : Nat} {s : State} {l : Load} {e : DirEntry} {body : List Word}

theorem exec_startupRecordLoad {k : RecKey} {todo : List RecKey} (released : s.held = false)
    (loading : s.rs.load = some l) (step : l.step = .records (k :: todo)) :
    exec (.startupRecordLoad dt) s = .next (((s.elapse dt).loadRecord k).atStep (.records todo)) := by
  show execStartupRecordLoad dt s = _
  rw [execStartupRecordLoad, State.take_released released]
  simp only [State.elapse_rs, loading, step]

/-- The body of a record of the active bank. -/
def RecordStore.bodyOf (r : RecordStore) (e : DirEntry) : List Word := recordBody (r.bank r.active) e.addr e.len

theorem State.loadRecord_context {c : Fin 4} (present : s.rs.directory[(RecKey.context c).idx] = some e) :
    s.loadRecord (.context c) = s.loadContext c e (s.rs.bodyOf e) := by
  simp only [State.loadRecord, RecordStore.entry, present]
  rfl

theorem State.loadRecord_table {t : Fin 8} (present : s.rs.directory[(RecKey.table t).idx] = some e) :
    s.loadRecord (.table t) = s.loadTable t e (s.rs.bodyOf e) := by
  simp only [State.loadRecord, RecordStore.entry, present]
  rfl

theorem State.loadRecord_settings (present : s.rs.directory[RecKey.settings.idx] = some e) :
    s.loadRecord .settings = s.loadSettings e (s.rs.bodyOf e) := by
  simp only [State.loadRecord, RecordStore.entry, present]
  rfl

theorem State.loadContext_bad (bad : e.bad = true) (c : Fin 4) :
    s.loadContext c e body = s.raise (.contextLoadFailed c .checkFail) := if_pos bad

theorem State.loadContext_ready (good : e.bad = false) {f : Rgb} {t : TileTable} (image : imageCheck body = .inr (f, t))
    (valid : validate t = .ok) (c : Fin 4) :
    s.loadContext c e body = { s with ms := { s.ms with contexts := upd s.ms.contexts c ⟨.ready, t, f⟩ } } := by
  simp [State.loadContext, good, validateImage, image, valid]

theorem State.loadContext_invalid (good : e.bad = false) {f : Rgb} {t : TileTable} (image : imageCheck body = .inr (f, t))
    {r : Reason} {n : Nat} (invalid : validate t = .failed r n) (c : Fin 4) :
    s.loadContext c e body = s.raise (.contextLoadFailed c (.validation r n)) := by
  simp [State.loadContext, good, validateImage, image, invalid]

theorem State.loadContext_noImage (good : e.bad = false) {n : Nat} (noImage : imageCheck body = .inl n) (c : Fin 4) :
    s.loadContext c e body = s.raise (.contextLoadFailed c (.validation .range n)) := by
  simp [State.loadContext, good, validateImage, noImage]

theorem State.loadTable_curves (good : e.bad = false) {curves : Curves} (form : curvesOfBody body = some curves)
    (t : Fin 8) :
    s.loadTable t e body =
      { s with cu := { s.cu with tables := upd s.cu.tables t curves },
               rs := { s.rs with load := s.rs.load.map fun l => { l with tables := upd l.tables t true } } } := by
  simp [State.loadTable, good, form]

theorem State.loadTable_badContent (good : e.bad = false) (form : curvesOfBody body = none) (t : Fin 8) :
    s.loadTable t e body = s.raise (.storeFault .badContent s.rs.active e.addr (some (.table t))) := by
  simp [State.loadTable, good, form, DirEntry.refusal]

theorem State.loadTable_checkFail (bad : e.bad = true) (t : Fin 8) :
    s.loadTable t e body = s.raise (.storeFault .checkFail s.rs.active e.addr (some (.table t))) := by
  simp [State.loadTable, bad, DirEntry.refusal]

theorem State.loadSettings_applied (good : e.bad = false) {st : Settings} (form : settingsOfBody body = some st) :
    s.loadSettings e body =
      { s with ports := configuredPorts st s.ports, cadence := st.cadence, ns := s.ns.setClasses st.classes,
               rs := { s.rs with load := s.rs.load.map fun l => { l with start := st.start } } } := by
  simp [State.loadSettings, good, form]

theorem State.loadSettings_badContent (good : e.bad = false) (form : settingsOfBody body = none) :
    s.loadSettings e body = s.raise (.storeFault .badContent s.rs.active e.addr (some .settings)) := by
  simp [State.loadSettings, good, form, DirEntry.refusal]

theorem State.loadSettings_checkFail (bad : e.bad = true) :
    s.loadSettings e body = s.raise (.storeFault .checkFail s.rs.active e.addr (some .settings)) := by
  simp [State.loadSettings, bad, DirEntry.refusal]

end

theorem PortConfig.value_eq (c : PortConfig) :
    c.value = 4096 * (if c.enabled then 1 else 0) +
      256 * (match c.loss with | .dark => 0 | .fill => 1 | .pattern => 2) +
      16 * (match c.pattern with | .solid => 0 | .bars => 1 | .ramp => 2 | .grid => 3) +
      (match c.forced with
       | none => 0 | some .solid => 1 | some .bars => 2 | some .ramp => 3 | some .grid => 4) := by
  obtain ⟨e, l, k, f⟩ := c
  rcases f with _ | _ | _ | _ | _ <;> rfl

/-- The settings that a body spells, item by item (R207). -/
theorem settingsOfBody_iff {ws : List Word} {st : Settings} :
    settingsOfBody ws = some st ↔
      ws.length = 16 ∧ (∀ p : Fin 8, (ws.getD p.1 0).toNat = st.ports[p].value) ∧
      st.cadence = (ws.getD 8 0).toNat % 16 ∧
      ((ws.getD 8 0).toNat / 16 % 16 = 0 ∧ (ws.getD 8 0).toNat / 8192 = 0) ∧
      (∀ k : Fin 16, st.classes[k].1 = (ws.getD (9 + k.1 / 8) 0).toNat / 4 ^ (7 - k.1 % 8) % 4) ∧
      startOfWords (ws.getD 8 0) ((ws.drop 11).take 4) (ws.getD 15 0) = some st.start := by
  simp only [← portOfWord_eq_some, ← bitsOf_nibble, ← bitsOf_unused, ← classOf_val, ← Fin.ext_iff]
  constructor
  · intro read
    have length := settingsOfBody_length read
    obtain ⟨ports, cadence, unused, classes, start⟩ := (settingsOfBody_eq_some length).mp read
    exact ⟨length, ports, cadence, unused, classes, start⟩
  · rintro ⟨length, ports, cadence, unused, classes, start⟩
    exact (settingsOfBody_eq_some length).mpr ⟨ports, cadence, unused, classes, start⟩

/-- Settles O15: the load by the key's own case; the settings item by item. -/
theorem startupRecordLoad : Obligations.StartupRecordLoad := by
  refine ⟨?load, ?settings⟩
  case load =>
    intro dt l k todo e s released loading step present body next skipped
    rw [exec_startupRecordLoad released loading step]
    have after {t u : State} (h : (s.elapse dt).loadRecord k = t) (hu : t.atStep (.records todo) = u) :
        Host.Outcome.next (φ := Fault) (ρ := Refusal) (((s.elapse dt).loadRecord k).atStep (.records todo)) = .next u := by
      rw [h, hu]
    have raised {d : Detail} (h : (s.elapse dt).loadRecord k = (s.elapse dt).raise d) :
        Host.Outcome.next (φ := Fault) (ρ := Refusal) (((s.elapse dt).loadRecord k).atStep (.records todo)) =
          .next (skipped.raise d) :=
      after h (State.atStep_of_load (s := (s.elapse dt).raise d) loading _)
    refine ⟨?context, ?table, ?set⟩
    case context =>
      rintro c rfl
      have load := State.loadRecord_context (s := s.elapse dt) present
      exact ⟨fun f t good image valid =>
          after (load.trans (State.loadContext_ready good image valid c)) (State.atStep_of_load (by exact loading) _),
        fun n good noImage => raised (load.trans (State.loadContext_noImage good noImage c)),
        fun f t r n good image invalid => raised (load.trans (State.loadContext_invalid good image invalid c)),
        fun bad => raised (load.trans (State.loadContext_bad bad c))⟩
    case table =>
      rintro t rfl
      have load := State.loadRecord_table (s := s.elapse dt) present
      refine ⟨fun curves good form => ?_, fun good form => raised (load.trans (State.loadTable_badContent good form t)),
        fun bad => raised (load.trans (State.loadTable_checkFail bad t))⟩
      · refine after (load.trans (State.loadTable_curves good form t)) ?_
        exact State.atStep_of_load (by simp [loading]) _
    case set =>
      rintro rfl
      have load := State.loadRecord_settings (s := s.elapse dt) present
      refine ⟨fun st good form => ?_, fun good form => raised (load.trans (State.loadSettings_badContent good form)),
        fun bad => raised (load.trans (State.loadSettings_checkFail bad))⟩
      · refine after (load.trans (State.loadSettings_applied good form)) ?_
        exact State.atStep_of_load (by simp [loading]) _
  case settings =>
    intro ws st word entry
    rw [settingsOfBody_iff, startOfWords_of_settings, and_assoc (a := _ = 0)]
    simp only [PortConfig.value_eq]
    obtain ⟨ports, cadence, classes, start⟩ := st
    rcases start with _ | c | es <;> exact Iff.rfl

end Sys2Proof.Machine
end

section
/-!
PROOFS. The end of the start-up load (R132, R133) and its report (R190, R192).
-/

namespace Sys2Proof.Machine

section
variable {dt : Nat} {s : State} {l : Load}

/-! ## One stale record (R132) -/

theorem RecordStore.bank_setBank (r : RecordStore) (b : BankId) (c : Cells Word) : (r.setBank b c).bank b = c := by
  cases b <;> rfl

theorem RecordStore.setBank_load (r : RecordStore) (b : BankId) (c : Cells Word) : (r.setBank b c).load = r.load := by
  cases b <;> rfl

/-- One access made, or failed. -/
theorem RecordStore.perform_one (m : Option Mishap) (i : Nat) (a : Access) (r : RecordStore) :
    r.perform m i [a] =
      let c := a.result (Ending.ofFault m i) (r.bank a.bank)
      (r.setBank a.bank c, (a.failure c).map fun addr => ⟨i, a.bank, addr⟩) := by
  simp only [RecordStore.perform]
  split
  next addr failed => rw [failed]; rfl
  next made => rw [made]; rfl

/-- The word that the programming of a state word leaves, where a mishap is of this very access. -/
theorem Access.result_state (b : BankId) (a : Nat) (mishap : Option Mishap) (step : ∀ m, mishap = some m → m.step = 0)
    (c : Cells Word) :
    Access.result (.state b a wordRetired .ordinary) (Ending.ofFault mishap 0) c =
      cellWrite erased a (bankRead c a &&& (mishap.map Mishap.word).getD 0) c := by
  cases mishap with
  | none => rfl
  | some m =>
    have faulty : Ending.ofFault (some m) 0 = .faulty m := by simp [Ending.ofFault, Option.filter, step m rfl]
    rw [faulty]
    rfl

theorem bankRead_cellWrite {c : Cells Word} (ok : Memory.wf erased c = true) (a : Nat) (w : Word) :
    bankRead (cellWrite erased a w c) a = w := by
  rw [bankRead, cellRead_cellWrite ok, if_pos rfl]

/-- The programming of one stale record: the word that stands there then, which tells whether it was verified. -/
theorem State.tidyOne_eq {faults : List (Nat × Word)} {a : Nat} {w : Word}
    (ok : Memory.wf erased (s.rs.bank s.rs.active) = true)
    (left : w = bankRead (s.rs.bank s.rs.active) a &&&
      (((faults.find? fun f => f.1 == a).map fun f => f.2).getD 0)) :
    State.tidyOne faults s a =
      let r := s.rs.setBank s.rs.active (cellWrite erased a w (s.rs.bank s.rs.active))
      if w = 0 then { s with rs := r }
      else ({ s with rs := { r with full := true } } : State).raise (.storeFault .writeFault s.rs.active a none) := by
  have word : ((faults.find? fun f => f.1 == a).map fun f => f.2) =
      (((faults.find? fun f => f.1 == a).map fun f => (⟨0, f.2, []⟩ : Mishap)).map Mishap.word) := by
    simp [Function.comp_def]
  rw [word] at left
  simp only [State.tidyOne, RecordStore.perform_one, Access.bank]
  rw [Access.result_state _ _ _ (by rintro m made; obtain ⟨_, _, rfl⟩ := Option.map_eq_some_iff.mp made; rfl), ← left]
  simp only [Access.failure, bankRead_cellWrite ok, show wordRetired = 0 from rfl]
  by_cases verified : w = 0
  · simp [verified]
  · simp only [verified, if_false]
    rfl

theorem State.tidyOne_load (faults : List (Nat × Word)) (s : State) (a : Nat) :
    (State.tidyOne faults s a).rs.load = s.rs.load := by
  simp only [State.tidyOne]
  split
  · exact RecordStore.perform_load ..
  · exact RecordStore.perform_load ..

theorem State.tidied_load (faults : List (Nat × Word)) (stale : List Nat) (s : State) :
    (stale.foldl (State.tidyOne faults) s).rs.load = s.rs.load := by
  induction stale generalizing s with
  | nil => rfl
  | cons a stale ih => rw [List.foldl_cons, ih, State.tidyOne_load]

/-! ## The end of the load (R132, R133) -/

theorem exec_startupTidy (released : s.held = false) (loading : s.rs.load = some l) (step : l.step = .records [])
    (faults : List (Nat × Word)) :
    exec (.startupTidy dt faults) s = .next
      (let t := l.stale.foldl (State.tidyOne faults) (s.elapse dt)
       ((t.raiseIf t.rs.loadNearlyFull).placeStart l.start).atStep .report) := by
  show execStartupTidy dt faults s = _
  rw [execStartupTidy, State.take_released released]
  simp only [State.elapse_rs, loading, step]

theorem RecordStore.loadNearlyFull_eq (r : RecordStore) :
    r.loadNearlyFull =
      if r.full = false ∧ 32768 - r.append < 4096 then some (.storeNearlyFull (32768 - r.append) none) else none := by
  cases full : r.full
  case true => simp [RecordStore.loadNearlyFull, full]
  case false =>
    simp only [RecordStore.loadNearlyFull, RecordStore.nearlyFull, RecordStore.freeWords, full, if_false,
      Bool.false_eq_true, true_and]
    rfl

theorem State.placeStart_rs (t : Option Target) (s : State) : (s.placeStart t).rs = s.rs := by
  unfold State.placeStart
  split
  · rfl
  · split
    · rfl
    · exact State.placeSwitch_rs ..

theorem State.placeStart_notReady {w : Target} {c : Fin 4}
    (first : (w.contexts.find? fun c => !s.ms.isReady c) = some c) :
    s.placeStart (some w) = s.raise (.contextLoadFailed c .startSelection) := by
  simp only [State.placeStart, first]

theorem State.placeStart_ready {w : Target} (ready : (w.contexts.find? fun c => !s.ms.isReady c) = none) :
    s.placeStart (some w) = s.placeSwitch ⟨w, none, .sessionless⟩ := by
  simp only [State.placeStart, ready]

end

/-- Settles O16: the notices leave the load in progress as the tidying left it. -/
theorem startupTidy : Obligations.StartupTidy := by
  intro dt faults l s released loading step reported nearlyFull startPlaced ended
  refine ⟨?ended, ?one⟩
  case one =>
    intro a w ok m left r
    rw [State.tidyOne_eq ok left]
    exact ⟨fun verified => if_pos verified, fun failed => if_neg failed⟩
  case ended =>
    rw [exec_startupTidy released loading step]
    generalize tidied : l.stale.foldl (State.tidyOne faults) (s.elapse dt) = t
    have load : t.rs.load = some l := by
      rw [← tidied, State.tidied_load]; exact loading
    have warned : t.raiseIf t.rs.loadNearlyFull = nearlyFull t := by
      rw [RecordStore.loadNearlyFull_eq]
      dsimp only [nearlyFull]
      split <;> rfl
    have placed (u : State) : u.placeStart l.start = startPlaced u := by
      dsimp only [startPlaced]
      cases start : l.start with
      | none => rfl
      | some w =>
        dsimp only
        split
        next c first => exact State.placeStart_notReady first
        next ready => exact State.placeStart_ready ready
    refine congrArg _ ((State.atStep_of_load (l := l) ?_ _).trans ?_)
    · rw [State.placeStart_rs, State.raiseIf_rs, load]
    · rw [warned, placed]

/-- Settles O17. -/
theorem startupLoadCompletion : Obligations.StartupLoadCompletion := by
  intro dt l s released loading step
  show execStartupLoadCompletion dt s = _
  rw [execStartupLoadCompletion, State.take_released released]
  simp only [State.elapse_rs, loading, step, if_true]
  rfl

end Sys2Proof.Machine
end

section
/-!
PROOFS. The requests of the Map Store: the edit buffer (R20 to R27), the selections (R29 to R31), HOLD, RELEASE (R33) and
SET-CADENCE (R97).
-/

namespace Sys2Proof.Machine

/-! ## HOLD, RELEASE and SET-CADENCE -/

section
variable {k : Call} {s : State}

theorem holdBody_plain (plain : k.ops = []) :
    holdBody k s = ({ s with ms := { s.ms with hold := true } }, .answer .ok []) := by
  simp only [holdBody, plain, noOperands, done]

theorem releaseBody_plain (plain : k.ops = []) :
    releaseBody k s = ({ s with ms := { s.ms with hold := false } }, .answer .ok []) := by
  simp only [releaseBody, plain, noOperands, done]

theorem setCadenceBody_code {code : Fin 16} (ops : k.ops = [byteOf code.1]) :
    setCadenceBody k s = ({ s with cadence := code.1 }, .answer .ok []) := by
  simp only [setCadenceBody, ops, finOperand_val code (by decide : 16 ≤ 256), done]

end

/-- Settles O45, each request by what its body does, for its three forms at once. -/
theorem holdReleaseAndCadence : Obligations.HoldReleaseAndCadence := by
  intro dt c s
  refine ⟨fun plain => ⟨?hold, ?release⟩, fun code ops => ?cadence⟩
  case hold =>
    exact answeredAny holdBody rfl rfl rfl (fun _ _ same _ => holdBody_plain (same.trans plain)) fun _ _ => rfl
  case release =>
    exact answeredAny releaseBody rfl rfl rfl (fun _ _ same _ => releaseBody_plain (same.trans plain)) fun _ _ => rfl
  case cadence =>
    exact answeredAny setCadenceBody rfl rfl rfl (fun _ _ same _ => setCadenceBody_code (same.trans ops)) fun _ _ => rfl

/-! ## OPEN-EDIT -/

theorem openEditOperands_bytes (x : Fin 4) (copy : Bool) :
    openEditOperands [byteOf x.1, if copy then 0 else 1] = some (x, copy) := by
  cases copy <;> simp [openEditOperands, fin?_val x (by decide : 4 ≤ 256)]

section
variable {i : Fin 4} {key : Byte} {slot : Option (Fin 8)} {ops : List Byte} {x : Fin 4} {copy : Bool} {s : State}

/-- OPEN-EDIT's conditions in the order of R21. -/
theorem openEditBody_session (spelled : openEditOperands ops = some (x, copy)) :
    openEditBody ⟨.session i key, slot, ops⟩ s =
      if s.ms.contexts[x].status = .opened then refuse .notReady s
      else if s.ms.edit.isSome then refuse .locked s
      else if s.ms.inUse x then refuse .inUse s
      else done { s with ms := s.ms.openEdit key x copy } := by
  simp only [openEditBody, forSession, spelled]

end

/-- Settles O39: the state the request is tested in has the Map Store as it was, so the conditions decide there as they
would before the packet. -/
theorem openEditTakesTheBuffer : Obligations.OpenEditTakesTheBuffer := by
  intro dt c rq i d x copy s turn ops t answer buffer opened
  have spelled : openEditOperands c.ops = some (x, copy) := ops ▸ openEditOperands_bytes x copy
  have by_body {st : Status} {eff : State → State}
      (body : ∀ u, u.ms = s.ms → (if u.ms.contexts[x].status = .opened then refuse .notReady u
        else if u.ms.edit.isSome then refuse .locked u
        else if u.ms.inUse x then refuse .inUse u
        else done { u with ms := u.ms.openEdit c.key x copy }) = (eff u, .answer st []))
      (sessions : ∀ u, (eff u).sessions = u.sessions) : answer st eff :=
    answeredInSession_same openEditBody turn rfl
      (fun u tested => (openEditBody_session spelled).trans (body u tested.ms)) sessions
  refine ⟨fun isOpen => ?notReady, fun notOpen taken => ?locked, fun notOpen free used => ?inUse,
    fun blank free unused => ?blank, fun ready free unused => ?ready⟩
  case notReady => exact by_body (fun u ms => by rw [ms, if_pos isOpen]; rfl) fun _ => rfl
  case locked =>
    exact by_body (fun u ms => by rw [ms, if_neg notOpen, if_pos (Option.isSome_iff_ne_none.mpr taken)]; rfl) fun _ => rfl
  case inUse =>
    exact by_body (fun u ms => by rw [ms, if_neg notOpen, free, if_neg (by simp), if_pos used]; rfl) fun _ => rfl
  case blank =>
    refine by_body (fun u ms => ?_) fun _ => rfl
    have prior : s.ms.contexts[x].status.asPrior = .blank := by rw [blank]; rfl
    rw [ms, if_neg (by rw [blank]; decide), free, if_neg (by simp), unused, if_neg (by simp), MapStore.openEdit,
      openedBuffer, prior]
    simp only [opened, ms]
    rfl
  case ready =>
    refine by_body (fun u ms => ?_) fun _ => rfl
    have prior : s.ms.contexts[x].status.asPrior = .ready := by rw [ready]; rfl
    rw [ms, if_neg (by rw [ready]; decide), free, if_neg (by simp), unused, if_neg (by simp), MapStore.openEdit,
      openedBuffer, prior]
    simp only [opened, ms]
    rfl

/-! ## The edit requests of the buffer's owner -/

section
variable {i : Fin 4} {slot : Option (Fin 8)} {key : Byte} {ops : List Byte} {e : EditBuffer} {s : State}

theorem forEditor_owner (present : s.ms.edit = some e) (owner : e.owner = key) (f : EditBuffer → State × Reply) :
    forEditor ⟨.session i key, slot, ops⟩ s f = f e := by
  simp only [forEditor, forSession, present, owner, if_true]

theorem setTileBody_owner (present : s.ms.edit = some e) (owner : e.owner = key) {n : Fin 32} {t : Tile}
    (spelled : setTileOperands ops = some (n, t)) :
    setTileBody ⟨.session i key, slot, ops⟩ s = done (s.putEdit (e.setSlot n (some t))) := by
  simp only [setTileBody, forEditor_owner present owner, spelled]

theorem clearTileBody_owner (present : s.ms.edit = some e) (owner : e.owner = key) {n : Fin 32}
    (spelled : finOperand 32 ops = some n) :
    clearTileBody ⟨.session i key, slot, ops⟩ s = done (s.putEdit (e.setSlot n none)) := by
  simp only [clearTileBody, forEditor_owner present owner, spelled]

theorem setFillBody_owner (present : s.ms.edit = some e) (owner : e.owner = key) {f : Rgb}
    (spelled : setFillOperands ops = some f) :
    setFillBody ⟨.session i key, slot, ops⟩ s = done (s.putEdit { e with fill := f, result := none }) := by
  simp only [setFillBody, forEditor_owner present owner, spelled]

theorem checkEditBody_ok (present : s.ms.edit = some e) (owner : e.owner = key) (plain : ops = [])
    (valid : validate e.table = .ok) :
    checkEditBody ⟨.session i key, slot, ops⟩ s = done (s.putEdit { e with result := some .ok }) := by
  simp only [checkEditBody, forEditor_owner present owner, plain, noOperands, valid]

theorem checkEditBody_failed (present : s.ms.edit = some e) (owner : e.owner = key) (plain : ops = []) {r : Reason}
    {n : Nat} (invalid : validate e.table = .failed r n) :
    checkEditBody ⟨.session i key, slot, ops⟩ s =
      (s.putEdit { e with result := some (.failed r n) }, .answer .validateFail [reasonCode r, byteOf n]) := by
  simp only [checkEditBody, forEditor_owner present owner, plain, noOperands, invalid, failureBytes]

theorem closeEditBody_failed (present : s.ms.edit = some e) (owner : e.owner = key) (plain : ops = []) {r : Reason}
    {n : Nat} (invalid : validate e.table = .failed r n) :
    closeEditBody ⟨.session i key, slot, ops⟩ s =
      (s.putEdit { e with result := some (.failed r n) }, .answer .validateFail [reasonCode r, byteOf n]) := by
  simp only [closeEditBody, forEditor_owner present owner, plain, noOperands, invalid, failureBytes]

theorem closeEditBody_ok (present : s.ms.edit = some e) (owner : e.owner = key) (plain : ops = [])
    (valid : validate e.table = .ok) :
    closeEditBody ⟨.session i key, slot, ops⟩ s =
      if s.rs.savingContext e.target then refuse .busy s else done { s with ms := s.ms.closeEdit e } := by
  simp only [closeEditBody, forEditor_owner present owner, plain, noOperands, valid]

theorem abandonEditBody_owner (present : s.ms.edit = some e) (owner : e.owner = key) (plain : ops = []) :
    abandonEditBody ⟨.session i key, slot, ops⟩ s = done { s with ms := s.ms.releaseEdit } := by
  simp only [abandonEditBody, forEditor_owner present owner, plain, noOperands]

end

theorem setTileOperands_bytes (n : Fin 32) (t : Tile)
    (h : t.x < 8192 ∧ t.y < 8192 ∧ 1 ≤ t.w ∧ t.w ≤ 256 ∧ 1 ≤ t.h ∧ t.h ≤ 256) (bright : t.bright < 256) :
    setTileOperands (byteOf n.1 :: tileBytes t) = some (n, t) := by
  simp only [setTileOperands, fin?_val n (by decide : 32 ≤ 256), tileOperand_bytes t h bright]

theorem setFillOperands_bytes {f : Rgb} (h0 : f.c0 < 4096) (h1 : f.c1 < 4096) (h2 : f.c2 < 4096) :
    setFillOperands (bytes2 f.c0 ++ bytes2 f.c1 ++ bytes2 f.c2) = some f := by
  simp only [bytes2, List.cons_append, List.nil_append, setFillOperands, num2_bytes f.c0 (by omega),
    num2_bytes f.c1 (by omega), num2_bytes f.c2 (by omega), h0, h1, h2, and_self, if_true]

/-- Settles O40: the buffer and its owner stand in the state the request is tested in, and the operands spell what is
written. -/
theorem editsWriteTheBuffer : Obligations.EditsWriteTheBuffer := by
  intro dt c rq i d e n s turn present owner answer
  refine ⟨fun t x y w1 w h1 h bright ops => ?setTile, fun ops => ?clearTile, fun f h0 h1 h2 ops => ?setFill⟩
  case setTile =>
    exact answeredInSession_same setTileBody turn rfl (fun u tested => setTileBody_owner (tested.ms ▸ present) owner
      (ops ▸ setTileOperands_bytes n t ⟨x, y, w1, w, h1, h⟩ bright)) fun _ => rfl
  case clearTile =>
    exact answeredInSession_same clearTileBody turn rfl (fun u tested => clearTileBody_owner (tested.ms ▸ present) owner
      (ops ▸ finOperand_val n (by decide))) fun _ => rfl
  case setFill =>
    exact answeredInSession_same setFillBody turn rfl (fun u tested => setFillBody_owner (tested.ms ▸ present) owner
      (ops ▸ setFillOperands_bytes h0 h1 h2)) fun _ => rfl

/-! ## CHECK-EDIT, CLOSE-EDIT and ABANDON-EDIT -/

theorem RecordStore.savingContext_iff {r : RecordStore} {x : Fin 4} :
    r.savingContext x = true ↔ ∃ op, r.op = some op ∧ op.kind = .saveContext ∧ op.recKey = some (.context x) := by
  cases h : r.op with
  | none => simp [RecordStore.savingContext, h]
  | some op => simp [RecordStore.savingContext, h]

theorem MapStore.releaseEdit_taken {m : MapStore} {e : EditBuffer} (present : m.edit = some e) :
    m.releaseEdit =
      { m with edit := none,
               contexts := upd m.contexts e.target { m.contexts[e.target] with status := e.prior.status } } := by
  simp only [MapStore.releaseEdit, present]

/-- Settles O41, each request by what its body does in the state it is tested in. -/
theorem editsAreCheckedAndClosed : Obligations.EditsAreCheckedAndClosed := by
  intro dt c rq i d e s turn present owner plain answer result freed saving
  have saving_iff (u : State) (tested : Tested s u) : u.rs.savingContext e.target = true ↔ saving := by
    rw [tested.rs]; exact RecordStore.savingContext_iff
  refine ⟨fun valid => ?check, fun r n invalid => ⟨?checkFails, ?closeFails⟩, fun valid saves => ?busy,
    fun valid idle => ?close, ?abandon⟩
  case check =>
    exact answeredInSession_same checkEditBody turn rfl
      (fun u tested => checkEditBody_ok (tested.ms ▸ present) owner plain valid) fun _ => rfl
  case checkFails =>
    exact answeredInSession_same checkEditBody turn rfl
      (fun u tested => checkEditBody_failed (tested.ms ▸ present) owner plain invalid) fun _ => rfl
  case closeFails =>
    exact answeredInSession_same closeEditBody turn rfl
      (fun u tested => closeEditBody_failed (tested.ms ▸ present) owner plain invalid) fun _ => rfl
  case busy =>
    refine answeredInSession_same closeEditBody turn rfl (fun u tested => ?_) fun _ => rfl
    rw [closeEditBody_ok (tested.ms ▸ present) owner plain valid, if_pos ((saving_iff u tested).mpr saves)]
    rfl
  case close =>
    refine answeredInSession_same closeEditBody turn rfl (fun u tested => ?_) fun _ => rfl
    rw [closeEditBody_ok (tested.ms ▸ present) owner plain valid, if_neg (mt (saving_iff u tested).mp idle)]
    rfl
  case abandon =>
    refine answeredInSession_same abandonEditBody turn rfl (fun u tested => ?_) fun _ => rfl
    have taken : u.ms.edit = some e := tested.ms ▸ present
    rw [abandonEditBody_owner taken owner plain, MapStore.releaseEdit_taken taken]
    simp only [freed, ← tested.ms]
    cases e.prior <;> rfl

/-! ## SELECT-CONTEXT and SELECT-SEQUENCE -/

section
variable {k : Call} {s : State} {n : Option Word}

theorem selectContextBody_ready {x : Fin 4} (spelled : selectContextOperands k.ops = some (x, n))
    (ready : s.ms.contexts[x].status = .ready) :
    selectContextBody k s = (s.placeSwitch ⟨.context x, n, k.issuer⟩, .answer .ok []) := by
  simp only [selectContextBody, spelled, MapStore.isReady_iff.mpr ready, if_true, done]

theorem selectContextBody_unready {x : Fin 4} (spelled : selectContextOperands k.ops = some (x, n))
    (unready : s.ms.contexts[x].status ≠ .ready) : selectContextBody k s = (s, .answer .notReady []) := by
  have unready : s.ms.isReady x = false := eq_false_of_ne_true (mt MapStore.isReady_iff.mp unready)
  simp [selectContextBody, spelled, unready, refuse]

theorem selectSequenceBody_ready {es : List SeqEntry} (spelled : selectSequenceOperands k.ops = some (es, n))
    (ready : ∀ e ∈ es, s.ms.contexts[e.ctx].status = .ready) :
    selectSequenceBody k s = (s.placeSwitch ⟨.sequence es, n, k.issuer⟩, .answer .ok []) := by
  have none : s.ms.firstNotReady es = none := by
    simpa [MapStore.firstNotReady] using fun e mem => MapStore.isReady_iff.mpr (ready e mem)
  simp only [selectSequenceBody, spelled, none, done]

theorem selectSequenceBody_unready {as bs : List SeqEntry} {e : SeqEntry}
    (spelled : selectSequenceOperands k.ops = some (as ++ e :: bs, n))
    (before : ∀ a ∈ as, s.ms.contexts[a.ctx].status = .ready) (unready : s.ms.contexts[e.ctx].status ≠ .ready) :
    selectSequenceBody k s = (s, .answer .notReady [byteOf e.ctx.1]) := by
  have none : as.find? (fun e => !s.ms.isReady e.ctx) = none := by
    simpa using fun a mem => MapStore.isReady_iff.mpr (before a mem)
  have unready : s.ms.isReady e.ctx = false := eq_false_of_ne_true (mt MapStore.isReady_iff.mp unready)
  have first : s.ms.firstNotReady (as ++ e :: bs) = some e.ctx := by
    simp [MapStore.firstNotReady, List.find?_append, none, unready]
  simp only [selectSequenceBody, spelled, first]

theorem State.placeSwitch_first {w : SwitchPart} (none : s.ms.switch = none) :
    s.placeSwitch w = { s with ms := { s.ms with switch := some w } } := by
  simp only [State.placeSwitch, SwitchPart.supersedes, none]; rfl

theorem State.placeSwitch_again {w o : SwitchPart} (replaced : s.ms.switch = some o) :
    s.placeSwitch w =
      ({ s with ms := { s.ms with switch := some w } } : State).raise
        (.switchSuperseded o.issuer w.issuer o.target.isSequence) := by
  simp only [State.placeSwitch, SwitchPart.supersedes, replaced]; rfl

end

theorem frameOperand_bytes (n : Option Word) :
    frameOperand (match n with | some w => wordBytes w | none => []) = some n := by
  cases n with
  | none => exact frameOperand_none
  | some w => exact frameOperand_some w

theorem selectContextOperands_bytes {x : Fin 4} {n : Option Word} {frame : List Byte} (spelled : frameOperand frame = some n) :
    selectContextOperands (byteOf x.1 :: frame) = some (x, n) := by
  simp only [selectContextOperands, fin?_val x (by decide : 4 ≤ 256), spelled]

theorem selectSequenceOperands_bytes {es : List SeqEntry} {n : Option Word} {frame : List Byte} (nonempty : 1 ≤ es.length)
    (few : es.length ≤ 8) (counts : ∀ e ∈ es, 1 ≤ e.count ∧ e.count ≤ 255) (spelled : frameOperand frame = some n) :
    selectSequenceOperands
      (byteOf es.length :: (es.flatMap (fun e => [byteOf e.ctx.1, byteOf e.count]) ++ frame)) = some (es, n) := by
  have length : (byteOf es.length).toNat = es.length := byteOf_toNat (by omega)
  simp only [selectSequenceOperands, length, nonempty, few, and_self, if_true, seqEntries_bytes es frame counts, spelled,
    Option.map_some]

/-- Settles O43: for the three forms at once, the contexts are READY in the state the request is tested in exactly when
they were before, and placing the part is all that the body does. -/
theorem selectionsPlaceTheSwitchPart : Obligations.SelectionsPlaceTheSwitchPart := by
  intro dt c n s frame placed
  have place (target : Target) (issuer : Issuer) (u : State) :
      u.placeSwitch ⟨target, n, issuer⟩ = placed target issuer u := by
    simp only [placed]
    cases h : u.ms.switch with
    | none => exact State.placeSwitch_first h
    | some o => rw [State.placeSwitch_again h]; obtain ⟨_ | _, _, _⟩ := o <;> rfl
  have sessions (target : Target) (issuer : Issuer) (u : State) : (placed target issuer u).sessions = u.sessions := by
    rw [← place]; exact State.placeSwitch_sessions ..
  have spelled : frameOperand frame = some n := frameOperand_bytes n
  refine ⟨fun x ops => ?context, fun es nonempty few counts ops => ?sequence⟩
  case context =>
    have spelled : selectContextOperands c.ops = some (x, n) := ops ▸ selectContextOperands_bytes spelled
    refine ⟨fun ready => ?_, fun unready => ?_⟩
    · refine answeredAny selectContextBody rfl rfl rfl (fun k u same tested => ?_) (sessions _)
      rw [selectContextBody_ready (same ▸ spelled) (tested.ms ▸ ready), place]
    · exact answeredAny selectContextBody rfl rfl rfl
        (fun k u same tested => selectContextBody_unready (same ▸ spelled) (tested.ms ▸ unready)) fun _ _ => rfl
  case sequence =>
    have spelled : selectSequenceOperands c.ops = some (es, n) :=
      ops ▸ selectSequenceOperands_bytes nonempty few counts spelled
    refine ⟨fun ready => ?_, fun as e bs split before unready => ?_⟩
    · refine answeredAny selectSequenceBody rfl rfl rfl (fun k u same tested => ?_) (sessions _)
      rw [selectSequenceBody_ready (same ▸ spelled) (tested.ms ▸ ready), place]
    · subst split
      exact answeredAny selectSequenceBody rfl rfl rfl (fun k u same tested =>
        selectSequenceBody_unready (same ▸ spelled) (tested.ms ▸ before) (tested.ms ▸ unready)) fun _ _ => rfl

end Sys2Proof.Machine
end

section
/-!
PROOFS. How a request reaches its body or is refused before it (R152 to R160, R201), and the tests that come first in the
owning blocks (R20, R72, R73, R154).
-/

namespace Sys2Proof.Machine

/-! ## The body of a kind -/

/-- What executes a request of a kind. OPEN-SESSION, which has no body, is executed by its own rule (R158). -/
def requestBody : ReqKind → Body
  | .openSession => fun _ => refuse .badOperand
  | .closeSession => closeSessionBody
  | .keep => keepBody
  | .readStatus => readStatusBody
  | .cursorSet => cursorSetBody
  | .cursorWrite => cursorWriteBody
  | .cursorRead => cursorReadBody
  | .readTile => readTileBody
  | .openEdit => openEditBody
  | .setTile => setTileBody
  | .clearTile => clearTileBody
  | .setFill => setFillBody
  | .checkEdit => checkEditBody
  | .closeEdit => closeEditBody
  | .abandonEdit => abandonEditBody
  | .selectContext => selectContextBody
  | .selectSequence => selectSequenceBody
  | .cancelSelect => cancelSelectBody
  | .hold => holdBody
  | .release => releaseBody
  | .beginTable => beginTableBody
  | .endTable => endTableBody
  | .abandonTable => abandonTableBody
  | .setPort => setPortBody
  | .forcePattern => forcePatternBody
  | .setCadence => setCadenceBody
  | .readPort => readPortBody
  | .saveContext => saveContextBody
  | .saveTable => saveTableBody
  | .saveSettings => saveSettingsBody
  | .restoreContext => restoreContextBody
  | .restoreTable => restoreTableBody
  | .deleteRecord => deleteRecordBody
  | .compact => compactBody
  | .eraseStore => eraseStoreBody
  | .readStoreStatus => readStoreStatusBody
  | .setNoticeClass => setNoticeClassBody
  | .enumerate => enumerateBody
  | .reset => resetBody

section
variable {dt : Nat} {kind : ReqKind} {c : Ctl} {rq : Fin 8} {s : State}

/-- A request with a destination is executed by its kind's body; only an ENUMERATE without one is not (R194). -/
theorem exec_requestInstr (kind_ne : kind ≠ .openSession) (dest : c.dest ≠ 0) :
    exec (requestInstr dt c kind) s = request kind (requestBody kind) dt c s := by
  cases kind
  case openSession => exact absurd rfl kind_ne
  case enumerate =>
    show execEnumerate dt c s = _
    simp only [execEnumerate, if_neg dest]
    rfl
  all_goals rfl

theorem exec_addressed (addressed : Addressed dt c s rq) (kind_ne : kind ≠ .openSession) :
    exec (requestInstr dt c kind) s =
      .next ((s.received dt (reqCode kind) c rq).tested kind (requestBody kind) c rq) := by
  rw [exec_requestInstr kind_ne addressed.assigned, request, State.receive_heard addressed.released, State.request,
    control_addressed addressed]

theorem exec_unknownRequest (addressed : Addressed dt c s rq) (code : Byte) :
    exec (.unknownRequest dt code c) s =
      .next ((s.received dt code c rq).answered code c rq .unknownRequest []) := by
  show execUnknownRequest dt code c s = _
  rw [execUnknownRequest, State.receive_heard addressed.released, control_addressed addressed]
  rfl

end

/-! ## The tests before execution -/

section
variable {kind : ReqKind} {body : Body} {c : Ctl} {rq : Fin 8} {s : State}

theorem State.tested_starting (starting : s.phase = .starting) (other : kind ≠ .readStatus) :
    s.tested kind body c rq = s.answered (reqCode kind) c rq .starting [] := if_pos ⟨starting, other⟩

theorem State.tested_keyless (running : s.phase = .running) (keyless : c.key = 0) (needs : maySessionless kind = false) :
    s.tested kind body c rq = s.answered (reqCode kind) c rq .noSession [] := by
  rw [State.tested, if_neg (by simp [running]), if_pos keyless, needs]
  rfl

theorem State.tested_keyed (running : s.phase = .running) (keyed : c.key ≠ 0) :
    s.tested kind body c rq = s.sequenced kind body c rq := by
  rw [State.tested, if_neg (by simp [running]), if_neg keyed]

/-! ## The sequence rules -/

theorem State.sequenced_unknown (unknown : s.findSession c.key = none) :
    s.sequenced kind body c rq = s.answered (reqCode kind) c rq .noSession [] := by
  simp only [State.sequenced, unknown]
  rfl

variable {i : Fin 4} {d : Session}

theorem State.sequenced_outOfSequence (found : s.findSession c.key = some (i, d)) (notLast : c.seq ≠ d.last)
    (notNext : c.seq ≠ d.last + 1) : s.sequenced kind body c rq = s.answered (reqCode kind) c rq .outOfSequence [] := by
  simp only [State.sequenced, found, if_neg notLast, if_neg notNext]
  cases d.state <;> rfl

theorem State.sequenced_again {e : Nat} {cache : Cached} (found : s.findSession c.key = some (i, d))
    (ready : d.state = .ready e cache) (last : c.seq = d.last) :
    s.sequenced kind body c rq = s.resend (reqCode kind) c rq i cache := by
  simp only [State.sequenced, found, ready, if_pos last]

variable {h : Nat} {k : ReqKind} {q : Byte} {r : Fin 8}

theorem State.sequenced_inProgress (found : s.findSession c.key = some (i, d)) (waiting : d.state = .waiting h k q r)
    (last : c.seq = d.last) : s.sequenced kind body c rq = s.answered (reqCode kind) c rq .inProgress [] := by
  simp only [State.sequenced, found, waiting, if_pos last]
  rfl

theorem State.sequenced_busy (found : s.findSession c.key = some (i, d)) (waiting : d.state = .waiting h k q r)
    (next : c.seq = d.last + 1) : s.sequenced kind body c rq = s.answered (reqCode kind) c rq .busy [] := by
  have notLast : c.seq ≠ d.last := by rw [next]; bv_omega
  simp only [State.sequenced, found, waiting, if_neg notLast, if_pos next]
  rfl

/-- A cached response sent again restarts the lease of the session in its slot (R159). -/
theorem State.resend_session (code : Byte) (cache : Cached) (present : s.sessions[i] = some d) :
    s.resend code c rq i cache =
      { s.answered code c rq cache.status cache.results with
          sessions := upd s.sessions i (some { d with state := .ready (s.now + 10000 * 2 ^ d.lease) cache }) } := by
  have present : s.sessions[i] = some d := present
  simp only [State.resend, State.modSession, State.respond_sessions, present]
  rfl

end

/-- Settles O31: an addressed request under a key is handled by the sequence rules in the state it is received in, which
has the sessions as they were. -/
theorem sequenceNumbersDecide : Obligations.SequenceNumbersDecide := by
  intro dt kind c rq s kind_ne addressed running keyed ask reply
  have handled : ask = .next ((s.received dt (reqCode kind) c rq).sequenced kind (requestBody kind) c rq) :=
    (exec_addressed addressed kind_ne).trans
      (congrArg _ (State.tested_keyed ((State.received_phase ..).trans running) keyed))
  have found_iff : (s.received dt (reqCode kind) c rq).findSession c.key = s.findSession c.key :=
    State.received_findSession ..
  rw [handled]
  refine ⟨fun unknown => ?noSession, fun i d found =>
    ⟨fun notLast notNext => ?outOfSequence, fun e cache ready last => ?again, fun h k q r waiting =>
      ⟨fun last => ?inProgress, fun next => ?busy⟩⟩⟩
  case noSession => exact congrArg _ (State.sequenced_unknown (found_iff.trans unknown))
  case outOfSequence => exact congrArg _ (State.sequenced_outOfSequence (found_iff.trans found) notLast notNext)
  case again =>
    have present : (s.received dt (reqCode kind) c rq).sessions[i] = some d := by
      rw [State.received_sessions]; exact (State.findSession_some found).1
    rw [State.sequenced_again (found_iff.trans found) ready last, State.resend_session _ _ present,
      State.received_sessions, State.received_now]
  case inProgress => exact congrArg _ (State.sequenced_inProgress (found_iff.trans found) waiting last)
  case busy => exact congrArg _ (State.sequenced_busy (found_iff.trans found) waiting next)

/-! ## Dropped without a response -/

theorem ResponseQueue.freeSlot_none {q : ResponseQueue} (taken : ∀ i : Fin 8, q.slots[i] ≠ .free) :
    q.freeSlot = none := by
  simpa [ResponseQueue.freeSlot] using fun i _ => taken i

section
variable {dt : Nat} {c : Ctl} {s : State}

/-- Without a free response slot, or while a FULL reset is pending, an addressed request does what its arrival does
(R152, R201). -/
theorem control_dropped (dest : c.dest = s.address) (assigned : c.dest ≠ 0) (notAll : c.dest ≠ 255)
    (full : s.fullReset ≠ none ∨ s.rq.freeSlot = none) (code : Byte) (onBroadcast : State → State)
    (handle : Fin 8 → State → State) :
    (s.elapse dt).control code c onBroadcast handle = (s.elapse dt).arrive := by
  have mine : c.dest ≠ 0 ∧ c.dest = (s.elapse dt).address := ⟨assigned, dest⟩
  rw [State.control, if_neg notAll, if_pos mine, State.addressed]
  split
  case isTrue => rfl
  case isFalse noReset =>
    have noReset : s.fullReset = none := by simpa using noReset
    have noSlot : (s.elapse dt).arrive.rq.freeSlot = none := by simp [full.resolve_left (absurd noReset)]
    rw [noSlot]

theorem exec_dropped (heard : s.Receives dt) (dest : c.dest = s.address) (assigned : c.dest ≠ 0) (notAll : c.dest ≠ 255)
    (full : s.fullReset ≠ none ∨ s.rq.freeSlot = none) (kind : ReqKind) :
    exec (requestInstr dt c kind) s = .next (s.elapse dt).arrive := by
  by_cases opening : kind = .openSession
  · subst opening
    show execOpenSession dt c s = _
    rw [execOpenSession, State.receive_heard heard, control_dropped dest assigned notAll full]
  · rw [exec_requestInstr opening assigned, request_dropped dt kind _ heard dest assigned notAll full]

theorem exec_unknownRequest_dropped (heard : s.Receives dt) (dest : c.dest = s.address) (assigned : c.dest ≠ 0)
    (notAll : c.dest ≠ 255) (full : s.fullReset ≠ none ∨ s.rq.freeSlot = none) (code : Byte) :
    exec (.unknownRequest dt code c) s = .next (s.elapse dt).arrive := by
  show execUnknownRequest dt code c s = _
  rw [execUnknownRequest, State.receive_heard heard, control_dropped dest assigned notAll full]

end

/-! ## OPEN-SESSION -/

section
variable {dt : Nat} {c : Ctl} {s : State} {rq : Fin 8}

theorem exec_openSession_starting (addressed : Addressed dt c s rq) (starting : s.phase = .starting) :
    exec (.openSession dt c) s =
      .next ((s.received dt (reqCode .openSession) c rq).answered (reqCode .openSession) c rq .starting []) := by
  show execOpenSession dt c s = _
  rw [execOpenSession, State.receive_heard addressed.released, control_addressed addressed, State.received_phase,
    if_pos starting]
  rfl

theorem exec_openSession_running (addressed : Addressed dt c s rq) (running : s.phase = .running) :
    exec (.openSession dt c) s = .next ((s.received dt (reqCode .openSession) c rq).openSession c rq) := by
  show execOpenSession dt c s = _
  rw [execOpenSession, State.receive_heard addressed.released, control_addressed addressed, State.received_phase,
    if_neg (by simp [running])]

end

/-- Settles O32: the drop before a slot is reserved, and the tests in the state in which the slot is. -/
theorem requestsRefusedBeforeExecution : Obligations.RequestsRefusedBeforeExecution := by
  intro dt kind code c s ask unknown
  refine ⟨fun heard dest assigned notAll full => ?dropped, fun rq addressed => ?_⟩
  case dropped =>
    have full : s.fullReset ≠ none ∨ s.rq.freeSlot = none := full.imp_right ResponseQueue.freeSlot_none
    exact ⟨exec_dropped heard dest assigned notAll full kind,
      exec_unknownRequest_dropped heard dest assigned notAll full code⟩
  intro answered
  have phase : (s.received dt (reqCode kind) c rq).phase = s.phase := State.received_phase ..
  refine ⟨exec_unknownRequest addressed code, fun starting other => ?starting, fun running keyless needs => ?noSession⟩
  case starting =>
    by_cases opening : kind = .openSession
    · subst opening
      exact exec_openSession_starting addressed starting
    · exact (exec_addressed addressed opening).trans (congrArg _ (State.tested_starting (phase.trans starting) other))
  case noSession =>
    have opening : kind ≠ .openSession := fun same => needs (by simp [same])
    have needs : maySessionless kind = false := decide_eq_false needs
    exact (exec_addressed addressed opening).trans
      (congrArg _ (State.tested_keyless (phase.trans running) keyless needs))

/-! ## OPEN-SESSION by the conditions of R158 -/

/-- A search in ascending order finds the lowest that meets the condition. -/
theorem find?_of_lowest {n : Nat} {p : Fin n → Bool} {l : List (Fin n)} (sorted : l.Pairwise (· < ·)) {i : Fin n}
    (mem : i ∈ l) (holds : p i = true) (lowest : ∀ j, j < i → p j = false) : l.find? p = some i := by
  induction l with
  | nil => simp at mem
  | cons a l ih =>
    obtain ⟨below, sorted⟩ := List.pairwise_cons.mp sorted
    rcases List.mem_cons.mp mem with rfl | mem
    · simp [holds]
    · simp [lowest a (below i mem), ih sorted mem]

section
variable {c : Ctl} {rq : Fin 8} {s : State} {key : Byte} {lease : Nat}

theorem State.openSession_malformed (malformed : openSessionOperands c.ops = none) :
    s.openSession c rq = s.answered (reqCode .openSession) c rq .badOperand [] := by
  simp only [State.openSession, malformed]
  rfl

theorem State.openSession_again {i : Fin 4} {d : Session} {e : Nat} {cache : Cached}
    (spelled : openSessionOperands c.ops = some (key, lease)) (found : s.findSession key = some (i, d))
    (ready : d.state = .ready e cache) (resent : d.last = c.seq ∧ cache.kind = reqCode .openSession) :
    s.openSession c rq = s.resend (reqCode .openSession) c rq i cache := by
  simp only [State.openSession, spelled, found, ready, if_pos resent]

theorem State.openSession_inUse {i : Fin 4} {d : Session} (spelled : openSessionOperands c.ops = some (key, lease))
    (found : s.findSession key = some (i, d))
    (other : ∀ e cache, d.state = .ready e cache → ¬(d.last = c.seq ∧ cache.kind = reqCode .openSession)) :
    s.openSession c rq = s.answered (reqCode .openSession) c rq .inUse [] := by
  simp only [State.openSession, spelled, found]
  cases state : d.state with
  | ready e cache => exact if_neg (other e cache state)
  | waiting => rfl

theorem State.openSession_full (spelled : openSessionOperands c.ops = some (key, lease))
    (unknown : s.findSession key = none) (full : s.freeSession = none) :
    s.openSession c rq = s.answered (reqCode .openSession) c rq .noSession [] := by
  simp only [State.openSession, spelled, unknown, full]
  rfl

theorem State.openSession_free {i : Fin 4} (spelled : openSessionOperands c.ops = some (key, lease))
    (unknown : s.findSession key = none) (free : s.freeSession = some i) :
    s.openSession c rq =
      { s.answered (reqCode .openSession) c rq .ok [key, byteOf lease, byteOf i.1] with
          sessions := upd s.sessions i
            (some (newSession s.now key c.seq lease [key, byteOf lease, byteOf i.1])) } := by
  simp only [State.openSession, spelled, unknown, free]
  rfl

theorem State.freeSession_eq_none (taken : ∀ i : Fin 4, s.sessions[i] ≠ none) : s.freeSession = none := by
  simpa [State.freeSession, Option.isNone_iff_eq_none] using fun i _ => taken i

theorem mem_sessionIndices : ∀ i : Fin 4, i ∈ sessionIndices := by decide

theorem State.freeSession_eq_some {i : Fin 4} (free : s.sessions[i] = none)
    (lowest : ∀ j : Fin 4, j < i → s.sessions[j] ≠ none) : s.freeSession = some i :=
  find?_of_lowest (by decide) (mem_sessionIndices i) (Option.isNone_iff_eq_none.mpr free)
    fun j before => Option.isNone_eq_false_iff.mpr (Option.isSome_iff_ne_none.mpr (lowest j before))

end

theorem openSessionOperands_bytes {k : Byte} (nonzero : k ≠ 0) (l : Fin 16) :
    openSessionOperands [k, byteOf l.1] = some (k, l.1) := by
  simp only [openSessionOperands, if_neg nonzero, fin?_val l (by decide : 16 ≤ 256), Option.map_some]

theorem openSessionOperands_eq_none {ops : List Byte}
    (malformed : ops.length ≠ 2 ∨ (∃ b, ops = [0, b]) ∨ ∃ k b, ops = [k, b] ∧ 16 ≤ b.toNat) :
    openSessionOperands ops = none := by
  rcases malformed with count | ⟨b, rfl⟩ | ⟨k, b, rfl, big⟩
  · unfold openSessionOperands
    split
    case h_1 => simp at count
    case h_2 => rfl
  · simp [openSessionOperands]
  · simp [openSessionOperands, fin?, Nat.not_lt.mpr big]

/-- Settles O34, by the conditions of R158 in the state the packet is received in. -/
theorem openSessionTakesTheLowestFreeSlot : Obligations.OpenSessionTakesTheLowestFreeSlot := by
  intro dt c rq s addressed running code s0 ask
  have handled : ask = .next (s0.openSession c rq) := exec_openSession_running addressed running
  have find (k : Byte) : s0.findSession k = s.findSession k := State.received_findSession ..
  have sessions : s0.sessions = s.sessions := State.received_sessions ..
  have now : s0.now = s.now + dt := State.received_now ..
  rw [handled]
  refine ⟨fun malformed => congrArg _ (State.openSession_malformed (openSessionOperands_eq_none malformed)), ?_⟩
  intro k l nonzero ops full
  have spelled : openSessionOperands c.ops = some (k, l.1) := ops ▸ openSessionOperands_bytes nonzero l
  refine ⟨fun unknown taken => ?noSession, fun i unknown free lowest => ?opened, fun i d found =>
    ⟨fun e cache ready last kind => ?again, fun other => ?inUse⟩⟩
  case noSession =>
    exact congrArg _ (State.openSession_full spelled ((find k).trans unknown)
      (State.freeSession_eq_none (sessions ▸ taken)))
  case opened =>
    rw [State.openSession_free spelled ((find k).trans unknown)
      (State.freeSession_eq_some (sessions ▸ free) (sessions ▸ lowest)), sessions, now]
    rfl
  case again =>
    have present : s0.sessions[i] = some d := by rw [sessions]; exact (State.findSession_some found).1
    rw [State.openSession_again spelled ((find k).trans found) ready ⟨last, kind⟩,
      State.resend_session _ _ present, sessions, now]
  case inUse => exact congrArg _ (State.openSession_inUse spelled ((find k).trans found) other)

/-! ## Owners and operands -/

section
variable {i : Fin 4} {slot : Option (Fin 8)} {key : Byte} {ops : List Byte} {s : State}

theorem forEditor_other (other : ¬∃ e, s.ms.edit = some e ∧ e.owner = key) (f : EditBuffer → State × Reply) :
    forEditor ⟨.session i key, slot, ops⟩ s f = refuse .notOwner s := by
  simp only [forEditor, forSession]
  cases present : s.ms.edit with
  | none => rfl
  | some e => exact if_neg fun owner => other ⟨e, present, owner⟩

theorem forStager_other (other : ¬∃ t curves, s.cu.staging = .owned key t curves)
    (f : Fin 4 → Byte → Fin 8 → Curves → State × Reply) :
    forStager ⟨.session i key, slot, ops⟩ s f = refuse .notOwner s := by
  simp only [forStager, forSession]
  cases staging : s.cu.staging with
  | free | held => rfl
  | owned owner t curves => exact if_neg fun same : owner = key => other ⟨t, curves, same ▸ staging⟩

theorem forStager_owner {t : Fin 8} {curves : Curves} (owned : s.cu.staging = .owned key t curves)
    (f : Fin 4 → Byte → Fin 8 → Curves → State × Reply) :
    forStager ⟨.session i key, slot, ops⟩ s f = f i key t curves := by
  simp only [forStager, forSession, owned, if_true]

/-- The kinds that only the owner of the edit buffer may send (R20). -/
def editKinds : List ReqKind := [.setTile, .clearTile, .setFill, .checkEdit, .closeEdit, .abandonEdit]

/-- The kinds that only the owner of the staging area may send, and that test this first (R72, R73). -/
def stagingKinds : List ReqKind := [.endTable, .abandonTable]

theorem requestBody_notEditor {kind : ReqKind} (edits : kind ∈ editKinds)
    (other : ¬∃ e, s.ms.edit = some e ∧ e.owner = key) :
    requestBody kind ⟨.session i key, slot, ops⟩ s = refuse .notOwner s := by
  cases kind with
  | setTile | clearTile | setFill | checkEdit | closeEdit | abandonEdit =>
    exact forEditor_other (i := i) (slot := slot) (ops := ops) other _
  | _ => exact absurd edits (by decide)

theorem requestBody_notStager {kind : ReqKind} (stages : kind ∈ stagingKinds)
    (other : ¬∃ t curves, s.cu.staging = .owned key t curves) :
    requestBody kind ⟨.session i key, slot, ops⟩ s = refuse .notOwner s := by
  cases kind with
  | endTable | abandonTable => simp only [requestBody, endTableBody, abandonTableBody, forStager_other other]
  | _ => exact absurd stages (by decide)

theorem noOperands_of_nonempty (extra : (!ops.isEmpty) = true) : noOperands ops = none :=
  noOperands_eq_none (by simpa using extra)

/-- A body that reads its operands before it tests an owner refuses those that it cannot read. -/
theorem requestBody_malformed_first {kind : ReqKind} (malformed : kind.malformed ops = true) (edits : kind ∉ editKinds)
    (stages : kind ∉ stagingKinds) :
    requestBody kind ⟨.session i key, slot, ops⟩ s = refuse .badOperand s := by
  cases kind with
  | openSession => cases malformed
  | enumerate => rfl
  | setTile | clearTile | setFill | checkEdit | closeEdit | abandonEdit => exact absurd (by decide) edits
  | endTable | abandonTable => exact absurd (by decide) stages
  | closeSession | keep | cancelSelect | hold | release | saveSettings | compact | eraseStore | readStoreStatus =>
    simp only [requestBody, closeSessionBody, keepBody, cancelSelectBody, holdBody, releaseBody, saveSettingsBody,
      compactBody, eraseStoreBody, readStoreStatusBody, forSession, noOperands_of_nonempty malformed]
  | _ =>
    have unread := Option.isNone_iff_eq_none.mp malformed
    simp only [requestBody, readStatusBody, cursorSetBody, cursorWriteBody, cursorReadBody, readTileBody, openEditBody,
      selectContextBody, selectSequenceBody, beginTableBody, setPortBody, forcePatternBody, setCadenceBody, readPortBody,
      saveContextBody, saveTableBody, restoreContextBody, restoreTableBody, deleteRecordBody, setNoticeClassBody,
      resetBody, forSession, unread]

/-- The owner of the edit buffer is refused operands that cannot be read. -/
theorem requestBody_malformed_edit {kind : ReqKind} (malformed : kind.malformed ops = true) (edits : kind ∈ editKinds)
    (owner : ∃ e, s.ms.edit = some e ∧ e.owner = key) :
    requestBody kind ⟨.session i key, slot, ops⟩ s = refuse .badOperand s := by
  obtain ⟨e, present, owner⟩ := owner
  cases kind with
  | setTile | clearTile | setFill =>
    refine (forEditor_owner (i := i) (slot := slot) (ops := ops) present owner _).trans ?_
    simp only [Option.isNone_iff_eq_none.mp malformed]
  | checkEdit | closeEdit | abandonEdit =>
    refine (forEditor_owner (i := i) (slot := slot) (ops := ops) present owner _).trans ?_
    simp only [noOperands_of_nonempty malformed]
  | _ => exact absurd edits (by decide)

/-- The owner of the staging area is refused operands. -/
theorem requestBody_malformed_staging {kind : ReqKind} (malformed : kind.malformed ops = true)
    (stages : kind ∈ stagingKinds) (owner : ∃ t curves, s.cu.staging = .owned key t curves) :
    requestBody kind ⟨.session i key, slot, ops⟩ s = refuse .badOperand s := by
  obtain ⟨t, curves, owned⟩ := owner
  cases kind with
  | endTable | abandonTable =>
    simp only [requestBody, endTableBody, abandonTableBody, forStager_owner owned, noOperands_of_nonempty malformed]
  | _ => exact absurd stages (by decide)

end

/-- Settles O33: the body answers in the state the request is tested in, which has buffer and staging area as they were,
and an answer that changes nothing is all of the effect. -/
theorem ownersAndOperandsAreTested : Obligations.OwnersAndOperandsAreTested := by
  intro dt kind c rq i d s turn edits stages editor stager refused
  have by_body {st : Status} (opening : kind ≠ .openSession)
      (body : ∀ t, Tested s t → requestBody kind ⟨.session i c.key, some rq, c.ops⟩ t = refuse st t) : refused st :=
    answeredInSession_same (requestBody kind) turn (exec_requestInstr opening turn.addressed.assigned) body fun _ => rfl
  have opening {l : List ReqKind} (mem : kind ∈ l) (without : .openSession ∉ l) : kind ≠ .openSession :=
    fun same => without (same ▸ mem)
  refine ⟨fun other => ?notOwner, fun editor stager malformed => ?badOperand⟩
  case notOwner =>
    rcases other with ⟨edits, other⟩ | ⟨stages, other⟩
    · exact by_body (opening edits (by decide))
        fun t tested => requestBody_notEditor edits (tested.ms ▸ other)
    · exact by_body (opening stages (by decide))
        fun t tested => requestBody_notStager stages (tested.cu ▸ other)
  case badOperand =>
    refine by_body (fun same => by simp [same, ReqKind.malformed] at malformed) fun t tested => ?_
    by_cases mayEdit : kind ∈ editKinds
    · exact requestBody_malformed_edit malformed mayEdit (tested.ms ▸ editor mayEdit)
    by_cases mayStage : kind ∈ stagingKinds
    · exact requestBody_malformed_staging malformed mayStage (tested.cu ▸ stager mayStage)
    exact requestBody_malformed_first malformed mayEdit mayStage

end Sys2Proof.Machine
end

section
/-!
PROOFS. The ends of a session (R161, R164), the cursor (R169 to R171), and the staging area (R71 to R73).
-/

namespace Sys2Proof.Machine

/-! ## The ends of a session -/

section
variable {dt : Nat} {c : Ctl} {s t : State} {rq : Fin 8} {i : Fin 4} {d : Session}

/-- The next request of a READY session, answered without being cached: the session is as the body left it (R161). -/
theorem request_uncached (h : InTurn dt c s rq i d) (kind : ReqKind) (body : Body) {st : Status} {res : List Byte}
    (hb : body ⟨.session i c.key, some rq, c.ops⟩ (s.received dt (reqCode kind) c rq) = (t, .uncached st res)) :
    request kind body dt c s = .next (t.answered (reqCode kind) c rq st res) := by
  obtain ⟨e, cache, ready⟩ := h.ready
  rw [request_inTurn h kind body e cache ready, hb]
  rfl

theorem State.releaseOwned_eq (key : Byte) (s : State) :
    s.releaseOwned key = { s with ms := s.ms.withoutEditOf key, cu := s.cu.withoutStagingOf key } := by
  rw [State.releaseOwned, MapStore.releaseEdit_of_owner, CorrectionUnit.releaseStaging_of_owner]

theorem closeSessionBody_plain {key : Byte} {slot : Option (Fin 8)} {ops : List Byte} (plain : ops = []) :
    closeSessionBody ⟨.session i key, slot, ops⟩ s = ((s.releaseOwned key).freeSlot i, .uncached .ok []) := by
  simp only [closeSessionBody, forSession, plain, noOperands]

/-- The EDIT-ABANDONED detail of a buffer released with its session (R164). -/
theorem MapStore.editAbandoned_of_owner (m : MapStore) (key : Byte) :
    (if m.ownsEdit key then m.editAbandoned false else none) =
      match m.edit with
      | some b => if b.owner = key then some (.bufferAbandoned false b.target b.prior b.owner) else none
      | none => none := by
  cases present : m.edit with
  | none => simp [MapStore.ownsEdit, present]
  | some b => by_cases owner : b.owner = key <;> simp [MapStore.ownsEdit, MapStore.editAbandoned, present, owner]

/-- The EDIT-ABANDONED detail of a staging area released with its session (R164). -/
theorem CorrectionUnit.stagingAbandoned_of_owner (m : CorrectionUnit) (key : Byte) :
    (if m.ownsStaging key then m.stagingAbandoned false else none) =
      match m.staging with
      | .owned k t _ => if k = key then some (.stagingAbandoned false t k) else none
      | .free | .held .. => none := by
  cases staging : m.staging with
  | free | held => simp [CorrectionUnit.ownsStaging, staging]
  | owned k t curves =>
    by_cases owner : k = key <;> simp [CorrectionUnit.ownsStaging, CorrectionUnit.stagingAbandoned, staging, owner]

theorem exec_leaseExpiry_ready (released : s.held = false) {e : Nat} {cache : Cached} (present : s.sessions[i] = some d)
    (ready : d.state = .ready e cache) :
    exec (.leaseExpiry dt i) s =
      .next (((((s.elapse dt).reach e).abandonOwned d.key).freeSlot i).raise (.sessionExpired d.key i d.last)) := by
  show execLeaseExpiry dt i s = _
  rw [execLeaseExpiry, State.take_released released]
  simp only [State.elapse_sessions, present, ready]

end

/-- Settles O35: what is released is what the owner's release releases, and the slot is freed before the notices are
looked at since no raise changes it. -/
theorem sessionEndsReleaseWhatTheyOwn : Obligations.SessionEndsReleaseWhatTheyOwn := by
  refine ⟨?close, ?expiry⟩
  case close =>
    intro dt c rq i d s turn plain s0
    refine (request_uncached turn .closeSession closeSessionBody (closeSessionBody_plain plain)).trans (congrArg _ ?_)
    rw [State.releaseOwned_eq]
    simp only [State.freeSlot, State.answered, s0, State.received_ms, State.received_cu, State.received_sessions]
  case expiry =>
    intro dt e i d cache s released present ready freed buffer staging
    refine (exec_leaseExpiry_ready released present ready).trans 
      (congrArg Host.Outcome.next (congrArg (State.raise _) ?_))
    rw [State.abandonOwned, MapStore.releaseEdit_of_owner, CorrectionUnit.releaseStaging_of_owner,
      MapStore.editAbandoned_of_owner, CorrectionUnit.stagingAbandoned_of_owner, raiseIf_freeSlot, raiseIf_freeSlot]
    rfl

/-! ## Requests that change their own session -/

/-- The body changes the calling session and, apart from the sessions, has the effect `eff`. -/
theorem answeredInSession_session {kind : ReqKind} {cmd : Instr} {dt : Nat} {c : Ctl} {s : State} {rq : Fin 8} {i : Fin 4}
    {d d' : Session} {st : Status} {res : State → List Byte} {eff : State → State} (body : Body)
    (h : InTurn dt c s rq i d) (hx : exec cmd s = request kind body dt c s)
    (hb : ∀ t, Tested s t → t.sessions[i] = some d → body ⟨.session i c.key, some rq, c.ops⟩ t =
      ({ eff t with sessions := upd t.sessions i (some d') }, .answer st (res t)))
    (he : ∀ t, (eff t).sessions = t.sessions) :
    AnsweredInSession kind cmd dt c s rq i d' st res eff := by
  refine answeredInSession body h hx fun t tested => ?_
  have present : t.sessions[i] = some d := by rw [tested.sessions]; exact (State.findSession_some h.found).1
  exact ⟨_, hb t tested present, upd_same .., by simp only [upd_upd, he]⟩

section
variable {i : Fin 4} {d : Session} {s : State}

theorem State.setCursor_session (present : s.sessions[i] = some d) (cu : Option Cursor) :
    s.setCursor i cu = { s with sessions := upd s.sessions i (some { d with cursor := cu }) } := by
  rw [State.setCursor, State.modSession, present]
  rfl

theorem State.cursor_session (present : s.sessions[i] = some d) : s.cursor i = d.cursor := by
  rw [State.cursor, present]
  rfl

theorem State.dropStagingCursor_session (present : s.sessions[i] = some d) :
    s.dropStagingCursor i =
      { s with sessions := upd s.sessions i
                 (some { d with cursor := match d.cursor with
                                          | some ⟨.table t, pos⟩ => some ⟨.table t, pos⟩
                                          | _ => none }) } := by
  have kept {cu : Option Cursor} (same : d.cursor = cu) : s = { s with sessions := upd s.sessions i (some { d with cursor := cu }) } := by
    rw [← same, ← present, upd_self]
  rw [State.dropStagingCursor, State.cursor_session present]
  cases cursor : d.cursor with
  | none => exact kept cursor
  | some cu =>
    obtain ⟨target, pos⟩ := cu
    cases target with
    | table t => exact kept cursor
    | staging => exact State.setCursor_session present none

end

/-! ## The staging area -/

theorem beginTableOperands_bytes (t : Fin 8) (copy : Bool) :
    beginTableOperands [byteOf t.1, if copy then 0 else 1] = some (t, copy) := by
  cases copy <;> simp [beginTableOperands, fin?_val t (by decide : 8 ≤ 256)]

theorem RecordStore.savingTable_iff {r : RecordStore} {t : Fin 8} :
    r.savingTable t = true ↔ ∃ op, r.op = some op ∧ op.kind = .saveTable ∧ op.recKey = some (.table t) := by
  cases h : r.op with
  | none => simp [RecordStore.savingTable, h]
  | some op => simp [RecordStore.savingTable, h]

theorem Staging.isFree_iff {g : Staging} : g.isFree = true ↔ g = .free := by cases g <;> simp [Staging.isFree]

section
variable {i : Fin 4} {key : Byte} {slot : Option (Fin 8)} {ops : List Byte} {t : Fin 8} {copy : Bool} {d : Session}
variable {s : State}

/-- BEGIN-TABLE's conditions in the order of R71. -/
theorem beginTableBody_session (spelled : beginTableOperands ops = some (t, copy)) :
    beginTableBody ⟨.session i key, slot, ops⟩ s =
      if !s.cu.staging.isFree then refuse .locked s
      else if s.rs.savingTable t then refuse .busy s
      else done { s with cu := { s.cu with staging := .owned key t (if copy then s.cu.tables[t] else []) } } := by
  simp only [beginTableBody, forSession, spelled]

theorem endTableBody_owner {curves : Curves} (owned : s.cu.staging = .owned key t curves) (plain : ops = []) :
    endTableBody ⟨.session i key, slot, ops⟩ s =
      done (({ s with ms := { s.ms with install := some t },
                      cu := { s.cu with staging := .held t curves } } : State).dropStagingCursor i) := by
  simp only [endTableBody, forStager_owner owned, plain, noOperands]

theorem abandonTableBody_owner {curves : Curves} (owned : s.cu.staging = .owned key t curves) (plain : ops = []) :
    abandonTableBody ⟨.session i key, slot, ops⟩ s =
      done (({ s with cu := { s.cu with staging := .free } } : State).dropStagingCursor i) := by
  simp only [abandonTableBody, forStager_owner owned, plain, noOperands]

end

/-- Settles O46: BEGIN-TABLE by its conditions in the state it is tested in; the hand-over and the release by their
effect beside the cursor that they drop. -/
theorem stagingIsTakenAndHandedOver : Obligations.StagingIsTakenAndHandedOver := by
  intro dt c rq i d s turn answer staged d'
  refine ⟨?begins, fun t curves plain owned => ⟨?ends, ?abandons⟩⟩
  case begins =>
    intro t copy ops saving
    have spelled : beginTableOperands c.ops = some (t, copy) := ops ▸ beginTableOperands_bytes t copy
    have saving_iff (u : State) (tested : Tested s u) : u.rs.savingTable t = true ↔ saving := by
      rw [tested.rs]; exact RecordStore.savingTable_iff
    have free_iff (u : State) (tested : Tested s u) : u.cu.staging.isFree = true ↔ s.cu.staging = .free := by
      rw [tested.cu]; exact Staging.isFree_iff
    refine ⟨fun taken => ?locked, fun free saves => ?busy, fun free idle => ?ok⟩
    case locked =>
      refine answeredInSession_same beginTableBody turn rfl (fun u tested => ?_) fun _ => rfl
      rw [beginTableBody_session spelled, eq_false_of_ne_true (mt (free_iff u tested).mp taken)]
      rfl
    case busy =>
      refine answeredInSession_same beginTableBody turn rfl (fun u tested => ?_) fun _ => rfl
      rw [beginTableBody_session spelled, (free_iff u tested).mpr free, (saving_iff u tested).mpr saves]
      rfl
    case ok =>
      refine answeredInSession_same beginTableBody turn rfl (fun u tested => ?_) fun _ => rfl
      rw [beginTableBody_session spelled, (free_iff u tested).mpr free,
        eq_false_of_ne_true (mt (saving_iff u tested).mp idle), tested.cu]
      simp only [staged, tested.cu]
      rfl
  case ends =>
    refine answeredInSession_session endTableBody turn rfl (fun u tested present => ?_) fun _ => rfl
    exact (endTableBody_owner (tested.cu ▸ owned) plain).trans
      (congrArg done (State.dropStagingCursor_session (by exact present)))
  case abandons =>
    refine answeredInSession_session abandonTableBody turn rfl (fun u tested present => ?_) fun _ => rfl
    exact (abandonTableBody_owner (tested.cu ▸ owned) plain).trans
      (congrArg done (State.dropStagingCursor_session (by exact present)))

/-! ## The cursor -/

section
variable {curve : Fin 3} {index : Fin 1024}

theorem cursorSetOperands_table (t : Fin 8) :
    cursorSetOperands ([byteOf t.1, byteOf curve.1] ++ bytes2 index.1) = some (.table t, 1024 * curve.1 + index.1) := by
  have notStaging : byteOf t.1 ≠ 8 := by revert t; decide
  have range : curve.1 < 3 ∧ index.1 < 1024 := ⟨curve.2, index.2⟩
  simp only [bytes2, List.cons_append, List.nil_append, cursorSetOperands, byteOf_toNat (show curve.1 < 256 by omega),
    num2_bytes index.1 (by omega), if_pos range, if_neg notStaging, fin?_val t (by decide : 8 ≤ 256), Option.map_some]

theorem cursorSetOperands_staging :
    cursorSetOperands ([8, byteOf curve.1] ++ bytes2 index.1) = some (.staging, 1024 * curve.1 + index.1) := by
  have range : curve.1 < 3 ∧ index.1 < 1024 := ⟨curve.2, index.2⟩
  simp only [bytes2, List.cons_append, List.nil_append, cursorSetOperands, byteOf_toNat (show curve.1 < 256 by omega),
    num2_bytes index.1 (by omega), if_pos range, if_true]

end

theorem cursorWriteOperands_bytes {vs : List Nat} (nonempty : 1 ≤ vs.length) (few : vs.length ≤ 24)
    (range : ∀ v ∈ vs, v < 4096) : cursorWriteOperands (byteOf vs.length :: vs.flatMap bytes2) = some vs := by
  simp only [cursorWriteOperands, byteOf_toNat (show vs.length < 256 by omega), nonempty, few, and_self, if_true,
    values12_bytes vs range]

theorem cursorReadOperands_byte {n : Nat} (nonzero : 1 ≤ n) (few : n ≤ 24) : cursorReadOperands [byteOf n] = some n := by
  simp only [cursorReadOperands, byteOf_toNat (show n < 256 by omega), nonzero, few, and_self, if_true]

theorem CorrectionUnit.ownsStaging_owned {m : CorrectionUnit} {key : Byte} {t : Fin 8} {curves : Curves}
    (owned : m.staging = .owned key t curves) : m.ownsStaging key = true := by
  simp [CorrectionUnit.ownsStaging, owned]

theorem CorrectionUnit.ownsStaging_other {m : CorrectionUnit} {key : Byte}
    (other : ∀ t curves, m.staging ≠ .owned key t curves) : m.ownsStaging key = false := by
  cases staging : m.staging with
  | free | held => simp [CorrectionUnit.ownsStaging, staging]
  | owned k t curves =>
    simpa [CorrectionUnit.ownsStaging, staging] using fun same : k = key => other t curves (same ▸ staging)

section
variable {i : Fin 4} {key : Byte} {slot : Option (Fin 8)} {ops : List Byte} {d : Session} {s : State}
variable {target : CursorTarget} {pos : Nat}

theorem cursorSetBody_set (spelled : cursorSetOperands ops = some (target, pos))
    (may : target = .staging → s.cu.ownsStaging key = true) (present : s.sessions[i] = some d) :
    cursorSetBody ⟨.session i key, slot, ops⟩ s =
      ({ s with sessions := upd s.sessions i (some { d with cursor := some ⟨target, pos⟩ }) },
       .answer .ok (cursorTargetByte target :: positionBytes pos)) := by
  have may : ¬(target = .staging ∧ (!s.cu.ownsStaging key) = true) := fun ⟨staging, other⟩ => by simp [may staging] at other
  simp only [cursorSetBody, forSession, spelled, if_neg may, State.setCursor_session present]

theorem cursorSetBody_other (spelled : cursorSetOperands ops = some (.staging, pos))
    (other : s.cu.ownsStaging key = false) :
    cursorSetBody ⟨.session i key, slot, ops⟩ s = (s, .answer .notOwner []) := by
  simp [cursorSetBody, forSession, spelled, other, refuse]

variable {vs : List Nat}

theorem cursorWriteBody_noCursor (spelled : cursorWriteOperands ops = some vs) (present : s.sessions[i] = some d)
    (none : d.cursor = none) : cursorWriteBody ⟨.session i key, slot, ops⟩ s = (s, .answer .noCursor []) := by
  simp only [cursorWriteBody, forSession, spelled, State.cursor_session present, none, refuse]

theorem cursorWriteBody_table {t : Fin 8} (spelled : cursorWriteOperands ops = some vs)
    (present : s.sessions[i] = some d) (table : d.cursor = some ⟨.table t, pos⟩) :
    cursorWriteBody ⟨.session i key, slot, ops⟩ s = (s, .answer .notOwner []) := by
  simp only [cursorWriteBody, forSession, spelled, State.cursor_session present, table, refuse]

theorem cursorWriteBody_past (spelled : cursorWriteOperands ops = some vs) (present : s.sessions[i] = some d)
    (staging : d.cursor = some ⟨.staging, pos⟩) (past : 3072 < pos + vs.length) :
    cursorWriteBody ⟨.session i key, slot, ops⟩ s = (s, .answer .badOperand []) := by
  simp only [cursorWriteBody, forSession, spelled, State.cursor_session present, staging, refuse]
  exact if_pos past

theorem cursorWriteBody_written {t : Fin 8} {curves : Curves} (spelled : cursorWriteOperands ops = some vs)
    (present : s.sessions[i] = some d) (staging : d.cursor = some ⟨.staging, pos⟩) (within : pos + vs.length ≤ 3072)
    (owned : s.cu.staging = .owned key t curves) :
    cursorWriteBody ⟨.session i key, slot, ops⟩ s =
      ({ s with cu := { s.cu with staging := .owned key t (curveWrite pos vs curves) },
                sessions := upd s.sessions i (some { d with cursor := some ⟨.staging, pos + vs.length⟩ }) },
       .answer .ok (positionBytes (pos + vs.length))) := by
  have within : ¬Config.tableEntries < pos + vs.length := Nat.not_lt.mpr within
  have staged : s.cu.stage (curveWrite pos vs) =
      { s.cu with staging := .owned key t (curveWrite pos vs curves) } := by
    simp only [CorrectionUnit.stage, owned]
  simp only [cursorWriteBody, forSession, spelled, State.cursor_session present, staging, if_neg within,
    CorrectionUnit.ownsStaging_owned owned, if_true, staged]
  exact congrArg (·, _) (State.setCursor_session (by exact present) _)

variable {n : Nat}

theorem cursorReadBody_noCursor (spelled : cursorReadOperands ops = some n) (present : s.sessions[i] = some d)
    (none : d.cursor = none) : cursorReadBody ⟨.session i key, slot, ops⟩ s = (s, .answer .noCursor []) := by
  simp only [cursorReadBody, forSession, spelled, State.cursor_session present, none, refuse]

theorem cursorReadBody_past (spelled : cursorReadOperands ops = some n) (present : s.sessions[i] = some d)
    (cursor : d.cursor = some ⟨target, pos⟩) (past : 3072 < pos + n) :
    cursorReadBody ⟨.session i key, slot, ops⟩ s = (s, .answer .badOperand []) := by
  simp only [cursorReadBody, forSession, spelled, State.cursor_session present, cursor, refuse]
  exact if_pos past

theorem cursorReadBody_read (spelled : cursorReadOperands ops = some n) (present : s.sessions[i] = some d)
    (cursor : d.cursor = some ⟨target, pos⟩) (within : pos + n ≤ 3072) :
    cursorReadBody ⟨.session i key, slot, ops⟩ s =
      ({ s with sessions := upd s.sessions i (some { d with cursor := some ⟨target, pos + n⟩ }) },
       .answer .ok (byteOf n ::
         (((List.range n).flatMap fun j => bytes2 (curveEntry (s.cu.read target) (pos + j))) ++
           positionBytes (pos + n)))) := by
  have within : ¬Config.tableEntries < pos + n := Nat.not_lt.mpr within
  simp only [cursorReadBody, forSession, spelled, State.cursor_session present, cursor, if_neg within,
    State.setCursor_session present, cellReadList_eq, List.flatMap_map]
  rfl

end

/-- Settles O38, each transfer by what its body does with the cursor that the session has. -/
theorem cursorTransfersAdvance : Obligations.CursorTransfersAdvance := by
  intro dt c rq i d s turn at' place set write read
  refine ⟨?set, ?write, ?read⟩
  case set =>
    intro curve index pos
    refine ⟨fun t ops => ?table, fun ops => ⟨fun t curves owned => ?staging, fun other => ?notOwner⟩⟩
    case table =>
      exact answeredInSession_session cursorSetBody turn rfl (fun u tested present =>
        cursorSetBody_set (ops ▸ cursorSetOperands_table t) nofun present) fun _ => rfl
    case staging =>
      exact answeredInSession_session cursorSetBody turn rfl (fun u tested present =>
        cursorSetBody_set (ops ▸ cursorSetOperands_staging)
          (fun _ => tested.cu ▸ CorrectionUnit.ownsStaging_owned owned) present) fun _ => rfl
    case notOwner =>
      exact answeredInSession_same cursorSetBody turn rfl (fun u tested =>
        cursorSetBody_other (ops ▸ cursorSetOperands_staging) (tested.cu ▸ CorrectionUnit.ownsStaging_other other))
        fun _ => rfl
  case write =>
    intro vs nonempty few range ops
    have spelled : cursorWriteOperands c.ops = some vs := ops ▸ cursorWriteOperands_bytes nonempty few range
    have present {u : State} (tested : Tested s u) : u.sessions[i] = some d := by
      rw [tested.sessions]; exact (State.findSession_some turn.found).1
    refine ⟨fun none => ?noCursor, fun t pos table => ?notOwner, fun pos staging past => ?past,
      fun pos t curves staging within owned => ?written⟩
    case noCursor =>
      exact answeredInSession_same cursorWriteBody turn rfl
        (fun u tested => cursorWriteBody_noCursor spelled (present tested) none) fun _ => rfl
    case notOwner =>
      exact answeredInSession_same cursorWriteBody turn rfl
        (fun u tested => cursorWriteBody_table spelled (present tested) table) fun _ => rfl
    case past =>
      exact answeredInSession_same cursorWriteBody turn rfl
        (fun u tested => cursorWriteBody_past spelled (present tested) staging past) fun _ => rfl
    case written =>
      exact answeredInSession_session cursorWriteBody turn rfl (fun u tested present =>
        cursorWriteBody_written spelled present staging within (tested.cu ▸ owned)) fun _ => rfl
  case read =>
    intro n nonzero few ops
    have spelled : cursorReadOperands c.ops = some n := ops ▸ cursorReadOperands_byte nonzero few
    have present {u : State} (tested : Tested s u) : u.sessions[i] = some d := by
      rw [tested.sessions]; exact (State.findSession_some turn.found).1
    refine ⟨fun none => ?noCursor, fun t pos cursor past => ?past, ?read⟩
    case noCursor =>
      exact answeredInSession_same cursorReadBody turn rfl
        (fun u tested => cursorReadBody_noCursor spelled (present tested) none) fun _ => rfl
    case past =>
      exact answeredInSession_same cursorReadBody turn rfl
        (fun u tested => cursorReadBody_past spelled (present tested) cursor past) fun _ => rfl
    case read =>
      intro t pos cursor within curves
      refine answeredInSession_session cursorReadBody turn rfl (fun u tested present => ?_) fun _ => rfl
      have same : u.cu.read t = curves := by rw [tested.cu]; cases t <;> rfl
      rw [cursorReadBody_read spelled present cursor within, same]
      rfl

end Sys2Proof.Machine
end

section
/-!
PROOFS. The read requests and the bytes of their reports (R16, R43, R67, R89, R96, R134, R150, R173, R174).
-/

namespace Sys2Proof.Machine

/-! ## What the read requests answer -/

section
variable {k : Call} {s : State}

theorem readStatusBody_part {part : StatusPart} (spelled : readStatusOperands k.ops = some part) :
    readStatusBody k s = (s, .answer .ok (s.report part)) := by
  simp only [readStatusBody, spelled]

theorem readPortBody_port {p : Fin 8} (ops : k.ops = [byteOf p.1]) :
    readPortBody k s = (s, .answer .ok (s.portReport s.ports[p])) := by
  simp only [readPortBody, ops, finOperand_val p (by decide : 8 ≤ 256)]

theorem readStoreStatusBody_plain (plain : k.ops = []) :
    readStoreStatusBody k s = (s, .answer .ok s.rs.report) := by
  simp only [readStoreStatusBody, plain, noOperands]

theorem readTileOperands_context (x : Fin 4) (n : Fin 32) :
    readTileOperands [byteOf x.1, byteOf n.1] = some (.context x, n) := by
  have notEdit : byteOf x.1 ≠ 4 := by revert x; decide
  simp only [readTileOperands, fin?_val n (by decide : 32 ≤ 256), if_neg notEdit, fin?_val x (by decide : 4 ≤ 256),
    Option.map_some]

theorem readTileOperands_edit (n : Fin 32) : readTileOperands [4, byteOf n.1] = some (.edit, n) := by
  simp only [readTileOperands, fin?_val n (by decide : 32 ≤ 256), if_true]

theorem readTileBody_context {x : Fin 4} {n : Fin 32} (spelled : readTileOperands k.ops = some (.context x, n)) :
    readTileBody k s =
      (s, .answer .ok (ctxStatusCode s.ms.contexts[x].status ::
        tableSlotBytes s.ms.contexts[x].table s.ms.contexts[x].fill n)) := by
  simp only [readTileBody, spelled]

theorem readTileBody_free {n : Fin 32} (spelled : readTileOperands k.ops = some (.edit, n)) (free : s.ms.edit = none) :
    readTileBody k s = (s, .answer .notFound []) := by
  simp only [readTileBody, spelled, free, refuse]

theorem readTileBody_edit {n : Fin 32} {e : EditBuffer} (spelled : readTileOperands k.ops = some (.edit, n))
    (present : s.ms.edit = some e) :
    readTileBody k s =
      (s, .answer .ok ([e.owner, byteOf e.target.1, priorCode e.prior] ++ validationBytes e.result ++
        tableSlotBytes e.table e.fill n)) := by
  simp only [readTileBody, spelled, present]

end

/-- READ-STATUS is answered in STARTING too (R192). -/
theorem exec_readStatus_starting {dt : Nat} {c : Ctl} {s : State} {rq : Fin 8} (addressed : Addressed dt c s rq)
    (keyless : c.key = 0) {part : StatusPart} (spelled : readStatusOperands c.ops = some part) :
    exec (.readStatus dt c) s =
      .next ((s.received dt (reqCode .readStatus) c rq).answered (reqCode .readStatus) c rq .ok
        ((s.received dt (reqCode .readStatus) c rq).report part)) := by
  refine (exec_addressed (kind := .readStatus) addressed nofun).trans (congrArg _ ?_)
  rw [State.tested, if_neg (by simp), if_pos keyless, requestBody,
    readStatusBody_part (k := ⟨.sessionless, some rq, c.ops⟩) spelled]
  rfl

/-! ## The parts of the state -/

theorem RecordStore.stateCode_eq (r : RecordStore) :
    r.stateCode = if r.op ≠ none ∨ r.load ≠ none then 1 else if r.full = true then 2 else 0 := by
  simp [RecordStore.stateCode, Option.isSome_iff_ne_none]

theorem ResponseQueue.freeCount_eq (q : ResponseQueue) :
    q.freeCount = (q.slots.toList.filter fun x => decide (x = .free)).length := by
  simp only [ResponseQueue.freeCount, beq_eq_decide]

theorem damageBits_eq (d : Damage) :
    damageBits d =
      (if d.range then 1 else 0) + (if d.order then 2 else 0) + (if d.lostRuns then 4 else 0) +
        (if d.truncated then 8 else 0) := by
  obtain ⟨range, order, lostRuns, truncated⟩ := d
  revert range order lostRuns truncated
  decide

theorem portStateCode_portState (s : State) (p : Port) :
    portStateCode (portState s p) =
      if s.phase = .starting then 5
      else if p.config.enabled = false then 0
      else if p.stalled = true then 1
      else if p.config.forced ≠ none ∨ p.releasePending = true then 2
      else if (s.ft.lock = .lost ∨ s.ft.lock = .noSignal) ∧ s.ft.frame = none then 3
      else if p.queue ≠ [] ∨ p.transferring = true then 4
      else 5 := by
  unfold portState
  by_cases starting : s.phase = .starting
  · simp only [if_pos starting]; rfl
  have running : s.phase = .running := by cases phase : s.phase <;> simp_all
  cases enabled : p.config.enabled
  case false => simp [running, portStateCode]
  cases stalled : p.stalled
  case true => simp [running, portStateCode]
  by_cases forced : p.config.forced ≠ none ∨ p.releasePending = true
  · simp [running, forced, portStateCode, Option.isSome_iff_ne_none]
  obtain ⟨unforced, released⟩ : p.config.forced = none ∧ p.releasePending = false := by simpa using forced
  have loss : lossInForce s p = true ↔ (s.ft.lock = .lost ∨ s.ft.lock = .noSignal) ∧ s.ft.frame = none := by
    simp [lossInForce, enabled, unforced, released, running]
  by_cases lost : (s.ft.lock = .lost ∨ s.ft.lock = .noSignal) ∧ s.ft.frame = none
  · simp [running, unforced, released, loss.mpr lost, lost, portStateCode]
  · have inForce : lossInForce s p = false := eq_false_of_ne_true (mt loss.mp lost)
    simp only [running, unforced, released, inForce, lost]
    by_cases streaming : p.queue ≠ [] ∨ p.transferring = true
    · simp [streaming, portStateCode]
    · simp [streaming, portStateCode]

/-! ## The maps of the record store's report -/

/-- Bits weighted by their places. -/
theorem bitsNat_eq_sum (l : List Bool) (n : Nat) :
    2 ^ n * bitsNat l = ((l.zipIdx n).map fun e => if e.1 then 2 ^ e.2 else 0).sum := by
  induction l generalizing n with
  | nil => simp [bitsNat]
  | cons b l ih =>
    have rest := ih (n + 1)
    cases b <;> simp [bitsNat] <;> grind

theorem directory_toList {α : Type} (v : Vector α 13) : v.toList = RecKey.all.map fun k => v[k.idx] := by
  refine List.ext_getElem (by simp [RecKey.all]) fun i h _ => ?_
  have small : i < 13 := by simpa using h
  interval_cases i <;> rfl

theorem bitsNat_directory {α : Type} (v : Vector α 13) (p : α → Bool) :
    bitsNat (v.toList.map p) = (RecKey.all.map fun k => if p v[k.idx] then 2 ^ k.idx.1 else 0).sum := by
  rw [directory_toList]
  exact (Nat.one_mul _).symm.trans (bitsNat_eq_sum _ 0)

theorem RecordStore.liveMap_eq (r : RecordStore) :
    r.liveMap =
      (RecKey.all.map fun k => if r.directory[k.idx].any (fun _ => true) then 2 ^ k.idx.1 else 0).sum := by
  have same : (Option.isSome : Option DirEntry → Bool) = fun e => e.any fun _ => true := by
    funext e; cases e <;> rfl
  rw [RecordStore.liveMap, same]
  exact bitsNat_directory r.directory _

theorem RecordStore.badMap_eq (r : RecordStore) :
    r.badMap = (RecKey.all.map fun k => if r.directory[k.idx].any (fun e => e.bad) then 2 ^ k.idx.1 else 0).sum := by
  have same : (fun e : Option DirEntry => match e with | some e => e.bad | none => false) = Option.any DirEntry.bad := by
    funext e; cases e <;> rfl
  exact (congrArg (fun f => bitsNat (r.directory.toList.map f)) same).trans
    (bitsNat_directory r.directory (Option.any DirEntry.bad))

/-- Settles O37: a read's body reports the state it is tested in, and each report is spelled item by item. -/
theorem readsReportAndChangeNothing : Obligations.ReadsReportAndChangeNothing := by
  refine ⟨?reads, fun t => rfl, ?reports⟩
  case reads =>
    intro dt c s read
    have part (p : StatusPart) {b : Byte} (ops : c.ops = [b]) (spelled : readStatusOperands [b] = some p) :
        read .readStatus .ok fun s => s.report p :=
      answeredEither readStatusBody rfl rfl (fun k t same _ => readStatusBody_part (same.trans ops ▸ spelled))
        fun _ _ => rfl
    refine ⟨fun ops => part .device ops rfl, fun ops => part .sessions ops rfl, fun ops => part .map ops rfl,
      fun ops => part .frame ops rfl, fun ops => part .link ops rfl, ?starting, ?context, ?free, ?edit, ?port, ?store⟩
    case starting =>
      intro rq addressed starting keyless ops s0
      exact exec_readStatus_starting (part := .device) addressed keyless (ops ▸ rfl)
    case context =>
      intro x n ops t
      refine answeredEither readTileBody rfl rfl (fun k u same tested => ?_) fun _ _ => rfl
      rw [readTileBody_context (same.trans ops ▸ readTileOperands_context x n), tested.ms]
      rfl
    case free =>
      intro n ops free
      exact answeredEither readTileBody rfl rfl (fun k u same tested =>
        readTileBody_free (same.trans ops ▸ readTileOperands_edit n) (tested.ms ▸ free)) fun _ _ => rfl
    case edit =>
      intro n e ops present
      exact answeredEither readTileBody rfl rfl (fun k u same tested =>
        readTileBody_edit (same.trans ops ▸ readTileOperands_edit n) (tested.ms ▸ present)) fun _ _ => rfl
    case port =>
      intro p ops
      exact answeredEither readPortBody rfl rfl (fun k u same _ => readPortBody_port (same.trans ops)) fun _ _ => rfl
    case store =>
      intro plain
      exact answeredEither readStoreStatusBody rfl rfl (fun k u same _ => readStoreStatusBody_plain (same.trans plain))
        fun _ _ => rfl
  case reports =>
    intro s count storeState entries cursor
    refine ⟨?device, ?sessions, ?map, ?frame, ?link, ?port, ?store⟩
    case device =>
      rw [State.deviceReport, ResponseQueue.freeCount_eq, RecordStore.stateCode_eq]
      rfl
    case sessions =>
      have cursors (o : Option Cursor) : cursorBytes o = cursor o := by
        cases o with
        | none => rfl
        | some at' => obtain ⟨target, pos⟩ := at'; cases target <;> rfl
      refine congrArg (fun f => s.sessions.toList.flatMap f) (funext fun o => ?_)
      cases o with
      | none => rfl
      | some d => cases state : d.state <;> simp only [sessionBytes, state, cursors]
    case map =>
      rw [State.mapReport]
      cases s.ms.switch with
      | none => rfl
      | some w => obtain ⟨target, notBefore, issuer⟩ := w; cases issuer <;> rfl
    case frame =>
      rw [Tracker.report, Tracker.frameBytes, damageBits_eq]
      rfl
    case link =>
      rw [State.linkReport]
      cases s.up.sending <;> rfl
    case port =>
      intro p state tally
      rw [State.portReport, portStateCode_portState]
      rfl
    case store =>
      intro r live map
      rw [RecordStore.report, RecordStore.stateCode_eq, RecordStore.liveMap_eq, RecordStore.badMap_eq]
      rfl

end Sys2Proof.Machine
end

section
/-!
PROOFS. The port requests SET-PORT (R87, R93) and FORCE-PATTERN (R88, R100, R101), and what a discard does to a port.
-/

namespace Sys2Proof.Machine

/-! ## Discarding waiting lines -/

theorem rowsOfAge_generated {ls : List PortLine} (generated : ∀ l ∈ ls, ∀ f a, l.source ≠ .trunk f a) (age : Age) :
    rowsOfAge ls age = 0 := by
  induction ls with
  | nil => rfl
  | cons l ls ih =>
    have rest := ih fun l mem => generated l (List.mem_cons_of_mem _ mem)
    have first := generated l List.mem_cons_self
    rw [rowsOfAge_cons, rest]
    cases source : l.source with
    | trunk f a => exact absurd source (first f a)
    | policy | pattern => rfl

section
variable (p : Port) (drop : PortLine → Bool)

/-- The queue is emptied by a discard exactly when it had lines and keeps none. -/
theorem Port.discard_empties :
    ((p.inTransfer ++ p.waitingLines.filter fun l => !drop l).isEmpty && !(p.waitingLines.filter drop).isEmpty) =
      decide ((p.inTransfer ++ p.waitingLines.filter fun l => !drop l) = [] ∧ p.queue ≠ []) := by
  rw [Bool.eq_iff_iff]
  simp only [Bool.and_eq_true, List.isEmpty_iff, Bool.not_eq_true', decide_eq_true_eq]
  refine and_congr_right fun none => ?_
  obtain ⟨noTransfer, noneKept⟩ := List.append_eq_nil_iff.mp none
  have allGone : p.waitingLines.filter drop = p.waitingLines :=
    List.filter_eq_self.mpr fun l mem => by simpa using List.filter_eq_nil_iff.mp noneKept l mem
  rw [allGone, ← Bool.not_eq_true, List.isEmpty_iff]
  cases transfer : p.transferring with
  | true =>
    have empty : p.queue = [] := by simpa [Port.inTransfer, transfer] using noTransfer
    simp [Port.waitingLines, empty]
  | false => simp [Port.waitingLines, transfer]

/-- All that a discard does to a port (R92, R94). -/
theorem Port.discard_eq :
    let kept := p.inTransfer ++ p.waitingLines.filter fun l => !drop l
    p.discard drop =
      { p with
          queue := kept,
          stalled := if kept = [] ∧ p.queue ≠ [] then false else p.stalled,
          current := p.current.map fun t =>
            { t with dropped := t.dropped + rowsOfAge (p.waitingLines.filter drop) .current },
          last := p.last.map fun t =>
            { t with dropped := t.dropped + rowsOfAge (p.waitingLines.filter drop) .last } } := by
  intro kept
  simp only [Port.discard, Port.discard_empties, Port.foldl_countDropped, decide_eq_true_eq]
  by_cases empties : kept = [] ∧ p.queue ≠ []
  · rw [if_pos empties, if_pos empties]
  · rw [if_neg empties, if_neg empties]

/-- A discard of generated lines counts nothing (R94). -/
theorem Port.discard_generated (generated : ∀ l, drop l = true → ∀ f a, l.source ≠ .trunk f a) :
    let kept := p.inTransfer ++ p.waitingLines.filter fun l => !drop l
    p.discard drop =
      { p with queue := kept, stalled := if kept = [] ∧ p.queue ≠ [] then false else p.stalled } := by
  intro kept
  have none (age : Age) : rowsOfAge (p.waitingLines.filter drop) age = 0 :=
    rowsOfAge_generated (fun l mem => generated l (List.mem_filter.mp mem).2) age
  have same (o : Option Tally) : (o.map fun t => { t with dropped := t.dropped + 0 }) = o := by cases o <;> rfl
  rw [Port.discard_eq, none, none, same, same]

end

/-! ## SET-PORT -/

theorem setPortOperands_bytes (p : Fin 8) (on : Bool) (l : LossPolicy) (k : Pattern) :
    setPortOperands [byteOf p.1, yesNo on, byteOf (lossCode l), byteOf (patternCode k)] = some (p, on, l, k) := by
  simp only [setPortOperands, fin?_val p (by decide : 8 ≤ 256), boolOf_yesNo, lossOf_code, patternOf_code]

theorem setPortBody_session {i : Fin 4} {key : Byte} {slot : Option (Fin 8)} {ops : List Byte} {p : Fin 8} {on : Bool}
    {l : LossPolicy} {k : Pattern} (spelled : setPortOperands ops = some (p, on, l, k)) (s : State) :
    setPortBody ⟨.session i key, slot, ops⟩ s = (s.setPort p (s.ports[p].configure on l k), .answer .ok []) := by
  simp only [setPortBody, forSession, spelled]
  rfl

/-- A disable keeps the line in transfer alone, and counts the rows of the others (R93). -/
theorem Port.configure_off {p : Port} (enabled : p.config.enabled = true) (l : LossPolicy) (k : Pattern) :
    p.configure false l k =
      { p with
          config := ⟨false, l, k, p.config.forced⟩, gen := none, stallTimer := none, stalled := false,
          queue := p.inTransfer,
          current := p.current.map fun t => { t with dropped := t.dropped + rowsOfAge p.waitingLines .current },
          last := p.last.map fun t => { t with dropped := t.dropped + rowsOfAge p.waitingLines .last } } := by
  have all : p.waitingLines.filter (fun _ => true) = p.waitingLines := List.filter_eq_self.mpr fun _ _ => rfl
  have none : p.waitingLines.filter (fun _ => !true) = [] := List.filter_eq_nil_iff.mpr fun _ _ => by simp
  simp only [Port.configure, enabled, Bool.not_false, Bool.and_self, if_true, Port.disable, Port.discard_eq]
  simp only [Port.inTransfer, Port.waitingLines] at all none ⊢
  rw [all, none, List.append_nil]

theorem Port.configure_plain {p : Port} {on : Bool} (plain : ¬(p.config.enabled = true ∧ on = false)) (l : LossPolicy)
    (k : Pattern) : p.configure on l k = { p with config := ⟨on, l, k, p.config.forced⟩ } := by
  have plain : ¬((p.config.enabled && !on) = true) := by simpa using plain
  simp only [Port.configure]
  exact if_neg plain

/-- Settles O47: the body configures the port named, which by its two forms is the port of the statement. -/
theorem setPortConfiguresThePort : Obligations.SetPortConfiguresThePort := by
  refine ⟨?request, rfl, rfl, rfl⟩
  intro dt c rq i d p on l k s turn ops o config waiting rowsOf drop q
  have configured : s.ports[p].configure on l k = q := by
    by_cases disables : o.config.enabled = true ∧ on = false
    · obtain ⟨enabled, rfl⟩ := disables
      rw [Port.configure_off enabled]
      exact (if_pos ⟨enabled, rfl⟩).symm
    · rw [Port.configure_plain disables]
      exact (if_neg disables).symm
  refine answeredInSession_same setPortBody turn rfl (fun u tested => ?_) fun u => State.setPort_sessions ..
  rw [setPortBody_session (ops ▸ setPortOperands_bytes p on l k), tested.ports, configured]

/-! ## FORCE-PATTERN -/

theorem forcePatternOperands_port (p : Fin 8) (kind : Option Pattern) :
    forcePatternOperands [byteOf p.1, byteOf (forcedCode kind)] = some (some p, kind) := by
  have notAll : byteOf p.1 ≠ 255 := by revert p; decide
  simp only [forcePatternOperands, forcedOf_code, if_neg notAll, fin?_val p (by decide : 8 ≤ 256), Option.map_some]

theorem forcePatternOperands_all (kind : Option Pattern) :
    forcePatternOperands [255, byteOf (forcedCode kind)] = some (none, kind) := by
  simp only [forcePatternOperands, forcedOf_code, if_true]

theorem forcePatternBody_spelled {k : Call} {port : Option (Fin 8)} {kind : Option Pattern}
    (spelled : forcePatternOperands k.ops = some (port, kind)) (s : State) :
    forcePatternBody k s = (s.forcePattern port kind, .answer .ok []) := by
  simp only [forcePatternBody, spelled]
  rfl

/-- The lines of one sort of generated output. -/
def LineSource.generated (policy : Bool) : LineSource := if policy then .policy else .pattern

theorem Port.endGenerated_discards (policy : Bool) (p : Port) :
    p.endGenerated policy =
      Port.discard (fun l => l.source == LineSource.generated policy)
        { p with gen := p.gen.filter fun g => g.policy != policy } := by
  obtain ⟨config, queue, transferring, ready, stallTimer, stalled, release, gen, current, last, count⟩ := p
  cases gen with
  | none => rfl
  | some g => by_cases same : g.policy = policy <;> simp [Port.endGenerated, same, LineSource.generated, Option.filter]

/-- Output of one sort ended at a port, with its waiting lines (R100). -/
theorem Port.endGenerated_eq (policy : Bool) (p : Port) :
    let kept := p.inTransfer ++ p.waitingLines.filter fun l => decide (l.source ≠ LineSource.generated policy)
    p.endGenerated policy =
      { p with
          gen := p.gen.filter fun g => g.policy != policy, queue := kept,
          stalled := if kept = [] ∧ p.queue ≠ [] then false else p.stalled } := by
  intro kept
  have generated (l : PortLine) (drops : (l.source == LineSource.generated policy) = true) (f : Word) (a : Age) :
      l.source ≠ .trunk f a := by
    rw [beq_iff_eq.mp drops]
    cases policy <;> nofun
  have keeps : (fun l : PortLine => !(l.source == LineSource.generated policy)) =
      fun l => decide (l.source ≠ LineSource.generated policy) := by
    funext l; simp [beq_eq_decide]
  rw [Port.endGenerated_discards, Port.discard_generated _ _ generated, keeps]
  rfl

theorem Port.force_same {p : Port} {kind : Option Pattern} (same : p.config.forced = kind) (frameOpen : Bool) :
    p.force frameOpen kind = p := if_pos same

/-- The output that a change of the forced item ends is the one that it replaces (R100). -/
theorem Port.force_change {p : Port} {kind : Option Pattern} (change : p.config.forced ≠ kind) (frameOpen : Bool) :
    let kept := p.inTransfer ++ p.waitingLines.filter fun l =>
      decide (l.source ≠ LineSource.generated p.config.forced.isNone)
    p.force frameOpen kind =
      { p with
          config := { p.config with forced := kind },
          releasePending := if kind.isNone then frameOpen else false,
          gen := p.gen.filter fun g => g.policy != p.config.forced.isNone, queue := kept,
          stalled := if kept = [] ∧ p.queue ≠ [] then false else p.stalled } := by
  intro kept
  rw [Port.force, if_neg change, Port.endGenerated_eq]

/-- Settles O48: at each port the body's change is that of the statement, and it changes no frame, so that every port
in turn is changed with the same frame open or not. -/
theorem forcePatternChangesThePorts : Obligations.ForcePatternChangesThePorts := by
  intro dt c kind s forced
  have forces (u : State) (p : Port) : p.force u.ft.frame.isSome kind = forced u p := by
    have policy : p.config.forced.isNone = decide (p.config.forced = none) := by cases p.config.forced <;> rfl
    have ended : LineSource.generated (decide (p.config.forced = none)) =
        if p.config.forced = none then LineSource.policy else LineSource.pattern := by
      simp only [LineSource.generated, decide_eq_true_eq]
    have release : (if kind.isNone then u.ft.frame.isSome else false) = decide (kind = none ∧ u.ft.frame ≠ none) := by
      cases kind <;> cases u.ft.frame <;> rfl
    by_cases same : p.config.forced = kind
    · rw [Port.force_same same]
      exact (if_pos same).symm
    · rw [Port.force_change same, policy, ended, release]
      exact (if_neg same).symm
  have sessions (u : State) (i : Fin 8) : (u.setPort i (forced u u.ports[i])).sessions = u.sessions :=
    State.setPort_sessions ..
  refine ⟨fun p ops => ?port, fun ops => ?all⟩
  case port =>
    refine answeredAny forcePatternBody rfl rfl rfl (fun k u same _ => ?_) fun _ u => sessions u p
    rw [forcePatternBody_spelled (same.trans ops ▸ forcePatternOperands_port p kind)]
    exact congrArg (fun q => (u.setPort p q, Reply.answer .ok [])) (forces u u.ports[p])
  case all =>
    have each (frame : Option OpenFrame) (l : List (Fin 8)) (u : State) (same : u.ft.frame = frame) :
        l.foldl (fun u p => u.atPort p (Port.force frame.isSome kind)) u =
          l.foldl (fun u p => u.setPort p (forced u u.ports[p])) u := by
      subst same
      induction l generalizing u with
      | nil => rfl
      | cons p l ih =>
        rw [List.foldl_cons, List.foldl_cons, State.atPort, forces]
        simpa only [State.setPort_ft] using ih (u.setPort p (forced u u.ports[p]))
    have all (u : State) : u.forcePattern none kind =
        portIndices.foldl (fun u p => u.setPort p (forced u u.ports[p])) u := each u.ft.frame portIndices u rfl
    refine answeredAny forcePatternBody rfl rfl rfl (fun k u same _ => ?_) fun _ u => ?_
    · rw [forcePatternBody_spelled (same.trans ops ▸ forcePatternOperands_all kind), all]
      rfl
    · exact (congrArg State.sessions (all u)).symm.trans (State.atPorts_sessions ..)

end Sys2Proof.Machine
end

section
/-!
PROOFS. The Frame Tracker's lock (R58 to R65), the packets that only pass (R45, R60, R136), and the pending change set at
a frame open (R36 to R40).
-/

namespace Sys2Proof.Machine

/-! ## Packets that only pass -/

theorem State.elapse_forward (dt : Nat) (bytes : List Byte) (s : State) :
    (s.elapse dt).forward bytes = { s.elapse dt with out := if s.dn.up then [.forward bytes] else [] } :=
  State.forward_eq bytes (s.elapse dt)

/-- Settles O18: the arrival by the lock state, and three commands that forward their packet and arrive. -/
theorem passingPacketsRestartTheSignal : Obligations.PassingPacketsRestartTheSignal := by
  refine ⟨fun s => ⟨State.arrive_of_signal, State.arrive_of_noSignal⟩, fun dt bytes kind c s heard => ?_⟩
  intro passed
  have passes (p : List Byte) :
      s.receive dt (fun s => (s.forward p).arrive) = .next (passed p) := by
    rw [State.receive_heard heard, State.elapse_forward]
  exact ⟨passes _, passes bytes, passes _⟩

/-! ## The lock timers -/

theorem State.noticeLock_enters {s : State} {before lock : LockState} (entered : s.ft.lock = lock) (changed : lock ≠ before) :
    s.noticeLock before = s.raise (.lockChanged before lock s.ft.lastNumber) := by
  rw [State.noticeLock_of_ne (by rw [entered]; exact changed), entered]

/-- Settles O30: each timer runs in one lock state and leaves another, which is reported. -/
theorem lockTimersExpire : Obligations.LockTimersExpire := by
  intro dt t0 s released now become
  refine ⟨fun acquiring running => ?acquisition, fun r locked running reference => ?holdover,
    fun holdover running => ?loss⟩
  case acquisition =>
    show execAcquisitionTimerExpiry dt s = _
    rw [execAcquisitionTimerExpiry, State.take_released released, State.elapse_ft, running]
    exact congrArg Host.Outcome.next (State.noticeLock_enters rfl (by simp [acquiring]))
  case holdover =>
    show execHoldoverDeadlineExpiry dt s = _
    rw [execHoldoverDeadlineExpiry, State.take_released released, State.elapse_ft, running]
    refine (congrArg Host.Outcome.next (State.noticeLock_enters rfl (by simp [locked, Tracker.enter]))).trans ?_
    simp only [State.reach_ft, State.elapse_ft, reference]
    rfl
  case loss =>
    show execLossTimerExpiry dt s = _
    rw [execLossTimerExpiry, State.take_released released, State.elapse_ft, running]
    exact congrArg Host.Outcome.next (State.noticeLock_enters rfl (by simp [holdover]))

/-! ## The lock at a frame open -/

section
variable {now p : Nat} {t : Tracker}

/-- The period of an open that is regular (R58). -/
def Tracker.regularPeriod (now : Nat) (t : Tracker) : Option Nat := (t.period now).filter t.regularOpen

theorem Tracker.lockOpen_eq (now : Nat) (t : Tracker) :
    t.lockOpen now =
      match t.lock, t.regularPeriod now with
      | .acquiring, some p => if t.regular = 0 then { t.acquire now with regular := 1 } else t.lockAt now p
      | .acquiring, none => t.acquire now
      | .locked, some p => t.lockAt now p
      | .locked, none => t.acquire now
      | .holdover, _ => t.acquire now
      | .lost, _ => t.acquire now
      | .noSignal, _ => t := by
  have same : (match t.period now with | some p => if t.regularOpen p then some p else none | none => none) =
      t.regularPeriod now := by
    rw [Tracker.regularPeriod]
    cases t.period now <;> rfl
  rw [← same]
  rfl

theorem Tracker.regularPeriod_eq_some :
    t.regularPeriod now = some p ↔
      ∃ t0 m, t.lastOpen = some t0 ∧ p = min (now - t0) 2000000 ∧ t.lastClose = some .complete ∧
        1000 ≤ p ∧ p ≤ 1000000 ∧ t.measured = some m ∧ ((p - m) + (m - p)) * 64 ≤ m := by
  rw [Tracker.regularPeriod, Option.filter_eq_some_iff, Tracker.period, Tracker.regularOpen]
  cases t.lastOpen with
  | none => simp
  | some t0 =>
    cases t.measured with
    | none => simp
    | some m =>
      simp only [Option.map_some, Option.some.injEq, Bool.and_eq_true, beq_iff_eq, decide_eq_true_eq]
      constructor
      · rintro ⟨rfl, ⟨⟨complete, low⟩, high⟩, near⟩
        exact ⟨t0, m, rfl, rfl, complete, low, high, rfl, near⟩
      · rintro ⟨_, _, rfl, rfl, complete, low, high, rfl, near⟩
        exact ⟨rfl, ⟨⟨complete, low⟩, high⟩, near⟩

theorem Tracker.regularPeriod_eq_none (irregular : ∀ p, t.regularPeriod now ≠ some p) : t.regularPeriod now = none :=
  Option.eq_none_iff_forall_ne_some.mpr irregular

end

/-- Settles O22: the change by the lock state and the period that is regular, if one is. -/
theorem lockAtFrameOpen : Obligations.LockAtFrameOpen := by
  intro now t acquiring locked regular
  have regular_iff (p : Nat) : t.regularPeriod now = some p ↔ regular p := Tracker.regularPeriod_eq_some
  refine ⟨fun p isRegular lock first => ?first, fun p isRegular lock second => ?second, fun p isRegular lock => ?relock,
    fun irregular lock => ?irregular, fun lock => ?reacquire⟩
  case first =>
    rw [Tracker.lockOpen_eq, lock, (regular_iff p).mpr isRegular]
    exact if_pos first
  case second =>
    rw [Tracker.lockOpen_eq, lock, (regular_iff p).mpr isRegular]
    exact if_neg (by simp [second])
  case relock =>
    rw [Tracker.lockOpen_eq, lock, (regular_iff p).mpr isRegular]
    rfl
  case irregular =>
    have none := Tracker.regularPeriod_eq_none fun p => mt (regular_iff p).mp (irregular p)
    rw [Tracker.lockOpen_eq, none]
    rcases lock with lock | lock <;> rw [lock] <;> rfl
  case reacquire =>
    rw [Tracker.lockOpen_eq]
    rcases lock with lock | lock <;> rw [lock] <;> rfl

/-! ## The pending change set -/

section
variable {m : MapStore} {f : Word} {t : Fin 8} {w : SwitchPart}

theorem MapStore.switchDue_eq_none (notDue : ∀ w, m.switch = some w → frameReached f w.notBefore = false) :
    m.switchDue f = none := by
  refine Option.eq_none_iff_forall_ne_some.mpr fun w due => ?_
  obtain ⟨-, present, reached⟩ := MapStore.switchDue_eq_some.mp due
  simp [notDue w present] at reached

theorem MapStore.applied_advances (notDue : m.switchDue f = none) :
    m.applied f =
      { m with install := if m.installDue.isSome then none else m.install, selection := m.selection.advance } := by
  simp only [MapStore.applied, notDue]

theorem MapStore.installDue_released (released : m.hold = false) : m.installDue = m.install := by
  simp [MapStore.installDue, released]

end

section
variable {s : State} {f : Word} {t : Fin 8} {w : SwitchPart}

/-- Without a part that is due the selection alone advances (R40). -/
theorem State.applyPending_none (noSwitch : s.ms.switchDue f = none) (noInstall : s.ms.installDue = none) :
    s.applyPending f = { s with ms := { s.ms with selection := s.ms.selection.advance } } := by
  simp only [State.applyPending, MapStore.applied_advances noSwitch, noInstall, MapStore.changeApplied, noSwitch]
  rfl

theorem State.applyPending_switch (switch : s.ms.switchDue f = some w) (noInstall : s.ms.installDue = none) :
    s.applyPending f =
      ({ s with ms := { s.ms with selection := w.target.selection, switch := none } } : State).raise
        (.changeApplied f w.target.firstContext none) := by
  simp only [State.applyPending, MapStore.applied_of_switchDue switch, noInstall, MapStore.changeApplied, switch]
  rfl

theorem State.applyPending_install (noSwitch : s.ms.switchDue f = none) (install : s.ms.installDue = some t) :
    s.applyPending f =
      ({ s with ms := { s.ms with install := none, selection := s.ms.selection.advance },
                cu := s.cu.install t } : State).raise (.changeApplied f none (some t)) := by
  simp only [State.applyPending, MapStore.applied_advances noSwitch, install, MapStore.changeApplied, noSwitch]
  rfl

theorem State.applyPending_both (switch : s.ms.switchDue f = some w) (install : s.ms.installDue = some t) :
    s.applyPending f =
      ({ s with ms := { s.ms with install := none, selection := w.target.selection, switch := none },
                cu := s.cu.install t } : State).raise (.changeApplied f w.target.firstContext (some t)) := by
  simp only [State.applyPending, MapStore.applied_of_switchDue switch, install, MapStore.changeApplied, switch]
  rfl

end

theorem CorrectionUnit.install_held {c : CorrectionUnit} {u : Fin 8} {curves : Curves} (held : c.staging = .held u curves)
    (t : Fin 8) : c.install t = ⟨upd c.tables t curves, .free⟩ := by
  simp only [CorrectionUnit.install, held]

/-- Settles O23, by which of the two parts are due. -/
theorem pendingChangesAtFrameOpen : Obligations.PendingChangesAtFrameOpen := by
  intro f s advanced due idle
  have advances : s.ms.selection.advance = advanced := by
    simp only [advanced]
    cases s.ms.selection <;> rfl
  have reached_iff (w : SwitchPart) : frameReached f w.notBefore = true ↔ due w := by
    rw [frameReached_iff]
    cases h : w.notBefore <;> simp [due, h]
  have notDue (none : ∀ w, s.ms.switch = some w → ¬due w) : s.ms.switchDue f = Option.none :=
    MapStore.switchDue_eq_none fun w present => eq_false_of_ne_true (mt (reached_iff w).mp (none w present))
  have isDue {w : SwitchPart} (released : s.ms.hold = false) (present : s.ms.switch = some w) (isDue : due w) :
      s.ms.switchDue f = some w := MapStore.switchDue_eq_some.mpr ⟨released, present, (reached_iff w).mpr isDue⟩
  refine ⟨fun held => ?held, fun released noInstall none => ?idle, fun w released noInstall present wDue => ?switch,
    fun t u curves released install staged => ?_⟩
  case held =>
    rw [State.applyPending_none (by simp [MapStore.switchDue, held]) (by simp [MapStore.installDue, held]), advances]
  case idle =>
    rw [State.applyPending_none (notDue none) ((MapStore.installDue_released released).trans noInstall), advances]
  case switch =>
    exact State.applyPending_switch (isDue released present wDue)
      ((MapStore.installDue_released released).trans noInstall)
  have installs := (MapStore.installDue_released released).trans install
  intro cu
  have cu_eq : s.cu.install t = cu := CorrectionUnit.install_held staged t
  refine ⟨fun none => ?install, fun w present wDue => ?both⟩
  case install => rw [State.applyPending_install (notDue none) installs, advances, cu_eq]
  case both => rw [State.applyPending_both (isDue released present wDue) installs, cu_eq]

end Sys2Proof.Machine
end

section
/-!
PROOFS. The close of a frame and the raster lines it completes (R55, R83), and the open of a frame (R46 to R48, R57, R64,
R77, R78, R94, R100).
-/

namespace Sys2Proof.Machine

/-! ## What the picture path changes -/

/-- Only what the picture path owns differs: the notices it raises, the Tile Engine, the ports and what they put out. -/
def OnlyPicture (s t : State) : Prop := ∃ ns te ports out, t = { s with ns := ns, te := te, ports := ports, out := out }

section
variable {s t u : State}

theorem OnlyPicture.refl (s : State) : OnlyPicture s s := ⟨_, _, _, _, rfl⟩

theorem OnlyPicture.trans (first : OnlyPicture s t) (last : OnlyPicture t u) : OnlyPicture s u := by
  obtain ⟨_, _, _, _, rfl⟩ := first
  obtain ⟨ns, te, ports, out, rfl⟩ := last
  exact ⟨ns, te, ports, out, rfl⟩

theorem OnlyPicture.foldl {α : Type} {f : State → α → State} (each : ∀ s a, OnlyPicture s (f s a)) (l : List α) (s : State) :
    OnlyPicture s (l.foldl f s) := by
  induction l generalizing s with
  | nil => exact .refl s
  | cons a l ih => exact (each s a).trans (ih (f s a))

theorem onlyPicture_raise (d : Detail) (s : State) : OnlyPicture s (s.raise d) := ⟨_, _, _, _, rfl⟩

theorem onlyPicture_raiseIf (o : Option Detail) (s : State) : OnlyPicture s (s.raiseIf o) := by
  cases o with
  | none => exact .refl s
  | some d => exact onlyPicture_raise d s

theorem onlyPicture_noticeLock (before : LockState) (s : State) : OnlyPicture s (s.noticeLock before) := by
  unfold State.noticeLock
  split
  · exact .refl s
  · exact onlyPicture_raise ..

theorem onlyPicture_engine (w : Option Work) (s : State) : OnlyPicture s { s with te := w } := ⟨_, _, _, _, rfl⟩

theorem onlyPicture_setPort (i : Fin 8) (p : Port) (s : State) : OnlyPicture s (s.setPort i p) := ⟨_, _, _, _, rfl⟩

theorem onlyPicture_atPorts (f : Port → Port) (s : State) : OnlyPicture s (s.atPorts f) :=
  OnlyPicture.foldl (fun s i => onlyPicture_setPort i _ s) portIndices s

theorem onlyPicture_handLine (i : Fin 8) (f : Word) (l : PortLine) (s : State) : OnlyPicture s (s.handLine i f l) := by
  unfold State.handLine
  dsimp only
  split
  · exact (onlyPicture_raise ..).trans (onlyPicture_setPort ..)
  · exact onlyPicture_setPort ..

theorem onlyPicture_handPort (m : FrameMap) (rows : List RowProgress) (y : Nat) (s : State) (p : Fin 8) :
    OnlyPicture s (s.handPort m rows y p) := by
  unfold State.handPort
  split
  · exact onlyPicture_handLine ..
  · exact .refl s

theorem onlyPicture_completeLines (m : FrameMap) (n : Nat) (rows : List RowProgress) (y : Nat) (s : State) :
    OnlyPicture s (s.completeLines m n rows y) := by
  induction n generalizing rows y s with
  | zero => exact .refl s
  | succ n ih => exact (OnlyPicture.foldl (onlyPicture_handPort m rows y) portIndices s).trans (ih ..)

theorem onlyPicture_engineClose (truncated : Bool) (s : State) : OnlyPicture s (s.engineClose truncated) := by
  unfold State.engineClose
  split
  · exact .refl s
  · exact (onlyPicture_completeLines ..).trans (onlyPicture_engine ..)

theorem onlyPicture_engineOpen (f : Word) (w h : Nat) (s : State) : OnlyPicture s (s.engineOpen f w h) :=
  (onlyPicture_engine _ s).trans (onlyPicture_raiseIf ..)

end

/-! ## The lines a close completes -/

theorem State.linesComplete_eq (m : FrameMap) (rows : List RowProgress) (front n : Nat) (s : State) :
    s.linesComplete m rows front n =
      (List.range' front n).foldl (fun s y => s.completeLine m (if y = front then rows else []) y) s := rfl

/-- Lines that received nothing complete one after another. -/
theorem State.completeLines_skipped (m : FrameMap) (n y : Nat) (s : State) :
    s.completeLines m n [] y = (List.range' y n).foldl (fun s y => s.completeLine m [] y) s := by
  induction n generalizing y s with
  | zero => rfl
  | succ n ih => rw [State.completeLines, ih, List.range'_succ, List.foldl_cons]

/-- The line at the front completes with what it received, the later ones with nothing (R81, R83). -/
theorem State.completeLines_eq (m : FrameMap) (n : Nat) (rows : List RowProgress) (y : Nat) (s : State) :
    s.completeLines m n rows y = s.linesComplete m rows y n := by
  cases n with
  | zero => rfl
  | succ n =>
    rw [State.completeLines, State.completeLines_skipped, State.linesComplete_eq, List.range'_succ, List.foldl_cons,
      if_pos rfl]
    refine List.foldl_ext _ _ _ fun u z mem => ?_
    have later : z ≠ y := by
      obtain ⟨i, -, rfl⟩ := List.mem_range'.mp mem
      omega
    rw [if_neg later]

theorem foldl_max_le_iff (l : List Nat) (a c : Nat) : l.foldl max a ≤ c ↔ a ≤ c ∧ ∀ x ∈ l, x ≤ c := by
  induction l generalizing a with
  | nil => simp
  | cons x l ih => simp [ih, and_assoc]

/-- The bottom of a map is the least bound of its tiles' lower edges. -/
theorem FrameMap.bottom_eq {m : FrameMap} {b : Nat} (bound : ∀ e ∈ m.tiles, e.2.y + e.2.h ≤ b)
    (attained : b = 0 ∨ ∃ e ∈ m.tiles, e.2.y + e.2.h = b) : m.bottom = b := by
  have least (c : Nat) : m.bottom ≤ c ↔ ∀ e ∈ m.tiles, e.2.y + e.2.h ≤ c := by
    rw [FrameMap.bottom, foldl_max_le_iff, List.forall_mem_map]; simp
  refine Nat.le_antisymm ((least b).mpr bound) ?_
  rcases attained with rfl | ⟨e, mem, rfl⟩
  · exact Nat.zero_le _
  · exact (least _).mp le_rfl e mem

theorem State.engineClose_idle {s : State} (idle : s.te = none) (truncated : Bool) : s.engineClose truncated = s := by
  unfold State.engineClose; rw [idle]

theorem State.engineClose_working {s : State} {k : Work} (working : s.te = some k) (truncated : Bool) :
    s.engineClose truncated =
      { s.linesComplete k.map (if truncated then [] else k.rows) k.front (k.map.bottom - k.front) with te := none } := by
  unfold State.engineClose
  rw [working]
  dsimp only
  rw [State.completeLines_eq]

theorem State.engineClose_te (truncated : Bool) (s : State) : (s.engineClose truncated).te = none := by
  cases working : s.te with
  | none => rw [State.engineClose_idle working, working]
  | some k => rw [State.engineClose_working working]

/-! ## All the ports -/

theorem mem_portIndices : ∀ p : Fin 8, p ∈ portIndices := by decide

/-- A change at every port, as each port sees it. -/
theorem State.atPorts_port (f : Port → Port) (s : State) (p : Fin 8) :
    (s.atPorts f).ports[p] = (f s.ports[p]).settle s.now := by
  have each (l : List (Fin 8)) (once : l.Nodup) (s : State) :
      (l.foldl (fun s i => s.atPort i f) s).ports[p] = if p ∈ l then (f s.ports[p]).settle s.now else s.ports[p] := by
    induction l generalizing s with
    | nil => rfl
    | cons i l ih =>
      obtain ⟨fresh, once⟩ := List.nodup_cons.mp once
      rw [List.foldl_cons, ih once, State.atPort_ports, State.atPort_now, upd_apply]
      by_cases same : i = p
      · subst same; simp [fresh]
      · simp [same, Ne.symm same]
  exact (each portIndices (by decide) s).trans (if_pos (mem_portIndices p))

theorem Port.settle_releasePending (now : Nat) (p : Port) : (p.settle now).releasePending = p.releasePending := by
  unfold Port.settle Port.keepStall
  repeat' split
  all_goals rfl

theorem State.portsClose_releasePending (s : State) (p : Fin 8) : s.portsClose.ports[p].releasePending = false := by
  rw [State.portsClose, State.atPorts_port, Port.settle_releasePending]

/-! ## The close -/

theorem Damage.isEmpty_iff {d : Damage} : d.isEmpty = true ↔ d = ⟨false, false, false, false⟩ := by
  obtain ⟨range, order, lostRuns, truncated⟩ := d
  revert range order lostRuns truncated
  decide

theorem State.judged_eq (o : OpenFrame) (d : Damage) (s : State) :
    s.judged o d =
      if d = ⟨false, false, false, false⟩ then { s with ft := { s.ft with damage := d, lastClose := some .complete } }
      else
        ({ s with ft := { s.ft with damage := d, lastClose := some .damaged,
                                    damagedCount := s.ft.damagedCount + 1 } } : State).raise
          (.frameDamaged o.number d) := by
  by_cases none : d = ⟨false, false, false, false⟩
  · exact (if_pos (Damage.isEmpty_iff.mpr none)).trans (if_pos none).symm
  · exact (if_neg (mt Damage.isEmpty_iff.mp none)).trans (if_neg none).symm

/-- The judgement touches the Frame Tracker and raises its notice. -/
theorem State.judged_only (o : OpenFrame) (d : Damage) (s : State) :
    ∃ ns ft, s.judged o d = { s with ns := ns, ft := ft } := by
  unfold State.judged
  split
  · exact ⟨s.ns, _, rfl⟩
  · exact ⟨_, _, rfl⟩

/-- Settles O28: the close is its three steps, of which the first touches the Frame Tracker and raises its notice and the
others the picture path alone. -/
theorem frameCloseFollowsItsSteps : Obligations.FrameCloseFollowsItsSteps := by
  refine ⟨fun more s => ⟨fun blanking => State.closeFrame_blanking blanking more, ?close⟩, ?engine,
    fun truncated s idle => State.engineClose_idle idle truncated⟩
  case close =>
    intro o present d whole hurt judged ported
    have judged_eq : s.judged o (s.ft.damage.union more) = judged := State.judged_eq ..
    have closed := State.closeFrame_open present more
    rw [judged_eq] at closed
    have te : ported.te = none := (State.atPorts_te ..).trans (State.engineClose_te ..)
    have only : OnlyPicture judged ported := (onlyPicture_engineClose ..).trans (onlyPicture_atPorts ..)
    obtain ⟨ns, ft, judged_only⟩ := State.judged_only o (s.ft.damage.union more) s
    refine ⟨closed, te, State.portsClose_releasePending _, ?_⟩
    obtain ⟨ns', te', ports, out, only⟩ := only
    rw [only, ← judged_eq, judged_only]
    exact ⟨rfl, rfl, rfl, rfl, rfl, rfl, rfl, rfl, rfl, rfl, rfl, rfl⟩
  case engine =>
    intro truncated k bottom s working bound attained
    rw [State.engineClose_working working, FrameMap.bottom_eq bound attained]

end Sys2Proof.Machine
end

section
/-!
PROOFS. A FRAME-START by its geometry (R46, R47, R57), and what the open reaches (R48, R64, R77, R78, R94, R100).
-/

namespace Sys2Proof.Machine

/-! ## The Frame Tracker through a FRAME-START -/

section
variable (now : Nat) (t : Tracker) (more : Damage)

/-- A packet's arrival touches the lock and the signal timer (R45, R60). -/
theorem Tracker.packet_only :
    ∃ lock regular acquisition holdover loss, t.packet now =
      { t with lock := lock, regular := regular, acquisition := acquisition, holdover := holdover, loss := loss,
               signal := some (now + 100000) } := by
  unfold Tracker.packet
  split <;> exact ⟨_, _, _, _, _, rfl⟩

/-- A frame open's lock change touches the lock, its timers and the reference period (R59 to R65). -/
theorem Tracker.lockOpen_only :
    ∃ lock regular acquisition holdover loss reference, t.lockOpen now =
      { t with lock := lock, regular := regular, acquisition := acquisition, holdover := holdover, loss := loss,
               reference := reference } := by
  rw [Tracker.lockOpen_eq]
  repeat' split
  all_goals exact ⟨_, _, _, _, _, _, rfl⟩

/-- The Frame Tracker after a close (R55). -/
def Tracker.closed : Tracker :=
  match t.frame with
  | none => t
  | some _ =>
    if (t.damage.union more).isEmpty then
      { t with damage := t.damage.union more, lastClose := some .complete, frame := none, lineGap := none }
    else
      { t with damage := t.damage.union more, lastClose := some .damaged, damagedCount := t.damagedCount + 1,
               frame := none, lineGap := none }

theorem Tracker.closed_only :
    ∃ damage lastClose damagedCount lineGap, t.closed more =
      { t with damage := damage, lastClose := lastClose, damagedCount := damagedCount, lineGap := lineGap,
               frame := none } := by
  unfold Tracker.closed
  split
  case h_1 blanking => exact ⟨_, _, _, _, by rw [← blanking]⟩
  case h_2 => split <;> exact ⟨_, _, _, _, rfl⟩

theorem Tracker.closed_truncated :
    (t.closed Damage.ofTruncated).damagedCount = if t.frame.isSome then t.damagedCount + 1 else t.damagedCount := by
  have damaged : (t.damage.union Damage.ofTruncated).isEmpty = false := by
    simp [Damage.isEmpty, Damage.union, Damage.ofTruncated]
  unfold Tracker.closed
  cases t.frame with
  | none => rfl
  | some o => simp only [damaged]; rfl

end

section
variable (s : State) (more : Damage)

theorem State.closeFrame_only :
    ∃ ns te ports out, s.closeFrame more =
      { s with ns := ns, te := te, ports := ports, out := out, ft := s.ft.closed more } := by
  cases present : s.ft.frame with
  | none => exact ⟨_, _, _, _, by rw [State.closeFrame_blanking present, Tracker.closed, present]⟩
  | some o =>
    obtain ⟨ns, te, ports, out, only⟩ :=
      (onlyPicture_engineClose (s.ft.damage.union more).truncated (s.judged o (s.ft.damage.union more))).trans
        (onlyPicture_atPorts (fun p => { p with releasePending := false }) _)
    have portsClosed := State.closeFrame_open present more
    rw [State.portsClose, only] at portsClosed
    rw [portsClosed, Tracker.closed, present, State.judged]
    dsimp only
    split <;> exact ⟨ns, te, ports, out, rfl⟩

theorem State.applyPending_only (f : Word) :
    ∃ ns ms cu, s.applyPending f = { s with ns := ns, ms := ms, cu := cu } := by
  unfold State.applyPending
  cases s.ms.changeApplied f with
  | none => exact ⟨_, _, _, rfl⟩
  | some d => exact ⟨_, _, _, rfl⟩

/-- The blocks that a frame open reaches are Map Store, Correction Unit and the picture path (R48). -/
theorem State.openEvent_only (f : Word) (w h : Nat) :
    ∃ ns ms cu te ports out, s.openEvent f w h =
      { s with ns := ns, ms := ms, cu := cu, te := te, ports := ports, out := out } := by
  obtain ⟨ns, ms, cu, applied⟩ := s.applyPending_only f
  obtain ⟨ns', te, ports, out, only⟩ :=
    (onlyPicture_engineOpen f w h (s.applyPending f)).trans (onlyPicture_atPorts (Port.open f) _)
  exact ⟨ns', ms, cu, te, ports, out, by rw [State.openEvent, only, applied]⟩

end

theorem goodSize_iff {n : Nat} : goodSize n = true ↔ 1 ≤ n ∧ n ≤ 8192 := by simp [goodSize]

/-- What a close after the arrival leaves of what was counted and measured before it (R47). -/
theorem Tracker.closed_by_start (now : Nat) (t : Tracker) :
    let u := (t.packet now).closed Damage.ofTruncated
    u.frame = none ∧ (u.opened = t.opened ∧ u.lastOpen = t.lastOpen ∧ u.measured = t.measured) ∧
      u.lastNumber = t.lastNumber ∧
      u.damagedCount = if t.frame.isSome then t.damagedCount + 1 else t.damagedCount := by
  intro u
  have count : u.damagedCount = _ := (t.packet now).closed_truncated
  obtain ⟨_, _, _, _, _, packet⟩ := t.packet_only now
  obtain ⟨_, _, _, _, closed⟩ := (t.packet now).closed_only Damage.ofTruncated
  rw [count]
  simp only [u, closed, packet, and_self]

/-- What the open of a frame leaves of what was counted and measured before it (R46, R57). -/
theorem Tracker.opened_by_start (now : Nat) (f : Word) (w h : Nat) (t : Tracker) :
    let u := ((t.packet now).closed Damage.ofTruncated).openFrame now f w h
    (u.lastNumber = f ∧ u.opened = t.opened + 1 ∧ u.signal = some (now + 100000)) ∧
      u.measured = (match t.lastOpen with | some t0 => some (min (now - t0) 2000000) | none => t.measured) ∧
      u.damagedCount = if t.frame.isSome then t.damagedCount + 1 else t.damagedCount := by
  intro u
  have count := (t.packet now).closed_truncated
  obtain ⟨_, _, _, _, _, packet⟩ := t.packet_only now
  obtain ⟨_, _, _, _, closed⟩ := (t.packet now).closed_only Damage.ofTruncated
  obtain ⟨_, _, _, _, _, _, lock⟩ := ((t.packet now).closed Damage.ofTruncated).lockOpen_only now
  have opened : u.opened = t.opened + 1 := by
    simp only [u, Tracker.openFrame, lock]; rw [closed, packet]
  have signal : u.signal = some (now + 100000) := by
    simp only [u, Tracker.openFrame, lock]; rw [closed, packet]
  have damagedCount : u.damagedCount = if t.frame.isSome then t.damagedCount + 1 else t.damagedCount := by
    simp only [u, Tracker.openFrame, lock]; rw [count, packet]
  have measured :
      u.measured = (match t.lastOpen with | some t0 => some (min (now - t0) 2000000) | none => t.measured) := by
    simp only [u, Tracker.openFrame, Tracker.period]
    rw [closed, packet]
    cases t.lastOpen <;> rfl
  exact ⟨⟨rfl, opened, signal⟩, measured, damagedCount⟩

/-- A FRAME-START has arrived and an open frame is closed (R45, R46 step 1). -/
def State.cleared (s : State) : State := ({ s with ft := s.ft.packet s.now } : State).closeFrame Damage.ofTruncated

/-- The Frame Tracker has opened the frame (R46 steps 2 to 5). -/
def State.frameOpened (f : Word) (w h : Nat) (s : State) : State := { s with ft := s.ft.openFrame s.now f w h }

section
variable {s : State} {f : Word} {w h : Nat}

/-- A FRAME-START of good geometry: the arrival, the close of an open frame, the open, and the notice of the lock. -/
theorem State.frameStart_good (good : (1 ≤ w ∧ w ≤ 8192) ∧ 1 ≤ h ∧ h ≤ 8192) :
    s.frameStart f w h = ((s.cleared.frameOpened f w h).openEvent f w h).noticeLock s.ft.lock := by
  have sizes : (goodSize w && goodSize h) = true := by
    rw [Bool.and_eq_true, goodSize_iff, goodSize_iff]; exact good
  exact if_pos sizes

theorem State.frameStart_bad (bad : ¬((1 ≤ w ∧ w ≤ 8192) ∧ 1 ≤ h ∧ h ≤ 8192)) :
    s.frameStart f w h =
      ({ s.arrive.closeFrame Damage.ofTruncated with
           ft := { (s.arrive.closeFrame Damage.ofTruncated).ft with
                     damagedCount := (s.arrive.closeFrame Damage.ofTruncated).ft.damagedCount + 1 } } : State).raise
        (.badGeometry f) := by
  have sizes : ¬(goodSize w && goodSize h) = true := by
    rw [Bool.and_eq_true, goodSize_iff, goodSize_iff]; exact bad
  exact if_neg sizes

theorem State.cleared_only (s : State) :
    ∃ ns te ports out, s.cleared =
      { s with ns := ns, te := te, ports := ports, out := out,
               ft := (s.ft.packet s.now).closed Damage.ofTruncated } := State.closeFrame_only ..

/-- What a good FRAME-START leaves of the state. -/
theorem State.frameStart_good_only (good : (1 ≤ w ∧ w ≤ 8192) ∧ 1 ≤ h ∧ h ≤ 8192) :
    ∃ ns ms cu te ports out, s.frameStart f w h =
      { s with ns := ns, ms := ms, cu := cu, te := te, ports := ports, out := out,
               ft := ((s.ft.packet s.now).closed Damage.ofTruncated).openFrame s.now f w h } := by
  obtain ⟨ns, te, ports, out, cleared⟩ := s.cleared_only
  obtain ⟨ns', ms, cu, te', ports', out', event⟩ := (s.cleared.frameOpened f w h).openEvent_only f w h
  obtain ⟨ns'', te'', ports'', out'', notice⟩ :=
    onlyPicture_noticeLock s.ft.lock ((s.cleared.frameOpened f w h).openEvent f w h)
  exact ⟨ns'', ms, cu, te'', ports'', out'', by
    rw [State.frameStart_good good, notice, event, State.frameOpened, cleared]⟩

end

theorem exec_frameStart {dt : Nat} {f w h : Word} {s : State} (heard : s.Receives dt) :
    exec (.frameStart dt f w h) s =
      .next (((s.elapse dt).forward (frameStartPacket f w h)).frameStart f w.toNat h.toNat) := by
  show execFrameStart dt f w h s = _
  rw [execFrameStart, State.receive_heard heard]

/-- Settles O20: what each of the steps leaves is read off one after another. -/
theorem frameStartByItsGeometry : Obligations.FrameStartByItsGeometry := by
  intro dt f w h s heard good
  refine ⟨fun isGood => ?good, fun isBad => ?bad⟩
  case good =>
    obtain ⟨w1, w2, h1, h2⟩ := isGood
    obtain ⟨ns, ms, cu, te, ports, out, only⟩ :=
      State.frameStart_good_only (s := (s.elapse dt).forward (frameStartPacket f w h)) (f := f) ⟨⟨w1, w2⟩, h1, h2⟩
    refine ⟨_, (exec_frameStart heard).trans (congrArg _ only), ?_⟩
    obtain ⟨counters, measured, damagedCount⟩ := s.ft.opened_by_start (s.now + dt) f w.toNat h.toNat
    obtain ⟨lastNumber, opened, signal⟩ := counters
    simp only [State.forward_ft, State.forward_now, State.elapse_ft, State.elapse_now]
    exact ⟨rfl, rfl, rfl, rfl, rfl, lastNumber, opened, rfl, rfl, signal, measured, damagedCount, trivial, by simp, by simp,
      by simp, by simp, by simp, by simp, by simp, by simp, by simp, by simp, by simp, by simp, by simp⟩
  case bad =>
    have isBad : ¬((1 ≤ w.toNat ∧ w.toNat ≤ 8192) ∧ 1 ≤ h.toNat ∧ h.toNat ≤ 8192) :=
      fun ⟨⟨w1, w2⟩, h1, h2⟩ => isBad ⟨w1, w2, h1, h2⟩
    refine ⟨_, _, (exec_frameStart heard).trans (congrArg _ (State.frameStart_bad isBad)), rfl, rfl, ?_⟩
    obtain ⟨frame, ⟨opened, lastOpen, measured⟩, lastNumber, damagedCount⟩ := s.ft.closed_by_start (s.now + dt)
    obtain ⟨ns, te, ports, out, closed⟩ :=
      ((s.elapse dt).forward (frameStartPacket f w h)).arrive.closeFrame_only Damage.ofTruncated
    have ft : (((s.elapse dt).forward (frameStartPacket f w h)).arrive.closeFrame Damage.ofTruncated).ft =
        (s.ft.packet (s.now + dt)).closed Damage.ofTruncated := by rw [closed]; simp
    refine ⟨(congrArg Tracker.frame ft).trans frame, (congrArg Tracker.opened ft).trans opened,
      (congrArg Tracker.lastOpen ft).trans lastOpen, (congrArg Tracker.measured ft).trans measured,
      (congrArg Tracker.lastNumber ft).trans lastNumber, ?_, ?_⟩
    · refine (congrArg (fun t : Tracker => t.damagedCount + 1) ft).trans ?_
      rw [damagedCount]
      cases s.ft.frame with
      | none => rfl
      | some o => simp only [Option.isSome_some, if_true]; bv_omega
    · rw [closed]
      simp

/-! ## What an open reaches -/

theorem State.frameOpened_at {s : State} {now : Nat} (same : s.now = now) {f : Word} {w h : Nat} :
    s.frameOpened f w h = { s with ft := s.ft.openFrame now f w h } := by subst same; rfl

theorem State.openEvent_ft (f : Word) (w h : Nat) (s : State) : (s.openEvent f w h).ft = s.ft := by
  obtain ⟨_, _, _, _, _, _, only⟩ := s.openEvent_only f w h
  rw [only]

theorem Tracker.packet_lock (now : Nat) (t : Tracker) :
    (t.lock ≠ .noSignal → (t.packet now).lock = t.lock) ∧ (t.lock = .noSignal → (t.packet now).lock = .acquiring) := by
  unfold Tracker.packet
  by_cases lost : t.lock = .noSignal
  · exact ⟨fun other => absurd lost other, fun _ => by rw [if_pos lost]; rfl⟩
  · exact ⟨fun _ => by rw [if_neg lost], fun noSignal => absurd noSignal lost⟩

/-- The tiles and the fill colour that an open takes (R77). -/
theorem State.frameMap_shown (s : State) (f : Word) (w h : Nat) :
    s.frameMap f w h =
      { number := f, width := w, height := h, enabled := s.ports.map fun p => p.config.enabled,
        tiles := (if s.phase = .running then s.ms.shown else ([], Rgb.black)).1,
        fill := (if s.phase = .running then s.ms.shown else ([], Rgb.black)).2 } := rfl

theorem firstSlot_none {ts : Slotted} {bad : Nat × Tile → Bool} (good : ∀ e ∈ ts, bad e = false) :
    firstSlot ts bad = none := by
  simp only [firstSlot, Option.map_eq_none_iff, List.find?_eq_none]
  exact fun e mem => by simp [good e mem]

theorem firstSlot_first {as bs : Slotted} {e : Nat × Tile} {bad : Nat × Tile → Bool} (before : ∀ a ∈ as, bad a = false)
    (fails : bad e = true) : firstSlot (as ++ e :: bs) bad = some e.1 := by
  have none : as.find? bad = none := List.find?_eq_none.mpr fun a mem => by simp [before a mem]
  simp [firstSlot, List.find?_append, none, fails]

theorem beyondFrame_iff {m : FrameMap} {t : Tile} :
    beyondFrame m t = true ↔ m.width < t.x + t.w ∨ m.height < t.y + t.h := by simp [beyondFrame]

theorem State.engineOpen_fits {s : State} {f : Word} {w h : Nat} {m : FrameMap} (map : s.frameMap f w h = m)
    (fits : ∀ e ∈ m.tiles, beyondFrame m e.2 = false) : s.engineOpen f w h = { s with te := some ⟨m, 0, []⟩ } := by
  simp only [State.engineOpen, map, FrameMap.mismatch, firstSlot_none fits]
  rfl

theorem State.engineOpen_beyond {s : State} {f : Word} {w h : Nat} {m : FrameMap} (map : s.frameMap f w h = m)
    {as bs : Slotted} {e : Nat × Tile} (tiles : m.tiles = as ++ e :: bs) (before : ∀ a ∈ as, beyondFrame m a.2 = false)
    (beyond : beyondFrame m e.2 = true) :
    s.engineOpen f w h =
      ({ s with te := some ⟨m, 0, []⟩ } : State).raise (.geometryMismatch m.number e.1) := by
  simp only [State.engineOpen, map, FrameMap.mismatch, tiles,
    firstSlot_first (bad := fun e => beyondFrame m e.2) before beyond]
  rfl

/-! ## A port at a frame open -/

/-- What a line becomes at the next open (R94). -/
def openedLine (l : PortLine) : PortLine := ageLine (retireLine l)

theorem openedLine_policy (l : PortLine) : (openedLine l).source = .policy ↔ l.source = .policy := by
  obtain ⟨source, y, rows⟩ := l
  cases source with
  | trunk f a => cases a <;> simp [openedLine, retireLine, ageLine]
  | policy | pattern => rfl

theorem isLast_iff {l : PortLine} : isLast l = true ↔ ∃ f, l.source = .trunk f .last := by
  obtain ⟨source, y, rows⟩ := l
  cases source with
  | trunk f a => cases a <;> simp [isLast]
  | policy | pattern => simp [isLast]

theorem rowsOfAge_isLast {ls : List PortLine} (last : ∀ l ∈ ls, isLast l = true) : rowsOfAge ls .current = 0 := by
  induction ls with
  | nil => rfl
  | cons l ls ih =>
    obtain ⟨f, source⟩ := isLast_iff.mp (last l List.mem_cons_self)
    rw [rowsOfAge_cons, source, ih fun l mem => last l (List.mem_cons_of_mem _ mem)]
    rfl

/-- Lines of LAST's frame counted delivered change LAST's record alone (R94). -/
theorem Port.foldl_countDelivered_last {ls : List PortLine} (isLasts : ∀ l ∈ ls, isLast l = true) (p : Port) :
    ∃ last, ls.foldl Port.countDelivered p = { p with last := last } := by
  induction ls generalizing p with
  | nil => exact ⟨_, rfl⟩
  | cons l ls ih =>
    obtain ⟨f, source⟩ := isLast_iff.mp (isLasts l List.mem_cons_self)
    obtain ⟨last, rest⟩ := ih (fun l mem => isLasts l (List.mem_cons_of_mem _ mem)) (p.countDelivered l)
    refine ⟨last, ?_⟩
    rw [List.foldl_cons, rest, Port.countDelivered, source]
    rfl

section
variable (f : Word) (p : Port)

/-- The records shift, and the lines that wait of the frame retired are discarded (R94). -/
theorem Port.retire_eq :
    let kept := p.inTransfer ++ p.waitingLines.filter fun l => !isLast l
    p.retire f =
      { p with queue := kept.map openedLine, stalled := if kept = [] ∧ p.queue ≠ [] then false else p.stalled,
               current := some ⟨f, 0, 0, 0⟩, last := p.current } := by
  intro kept
  obtain ⟨last, delivered⟩ := Port.foldl_countDelivered_last
    (ls := (p.discard isLast).inTransfer.filter isLast) (fun l mem => (List.mem_filter.mp mem).2) (p.discard isLast)
  have none : rowsOfAge (p.waitingLines.filter isLast) .current = 0 :=
    rowsOfAge_isLast fun l mem => (List.mem_filter.mp mem).2
  have same : (p.current.map fun t => { t with dropped := t.dropped + 0 }) = p.current := by cases p.current <;> rfl
  rw [Port.retire, delivered, Port.discard_eq, none, same, List.map_map]
  rfl

/-- The lines that stay at an open: in transfer, or of no policy frame and not of the frame retired. -/
def staysAtOpen (l : PortLine) : Bool :=
  match l.source with
  | .trunk _ .last | .policy => false
  | _ => true

theorem staysAtOpen_iff (l : PortLine) : staysAtOpen l = (!isLast l && decide (l.source ≠ .policy)) := by
  obtain ⟨source, y, rows⟩ := l
  cases source with
  | trunk f a => cases a <;> rfl
  | policy | pattern => rfl

/-- All that an open does at a port (R94, R100). -/
theorem Port.open_eq :
    let kept := p.inTransfer ++ p.waitingLines.filter staysAtOpen
    p.open f =
      { p with queue := kept.map openedLine, gen := p.gen.filter fun g => !g.policy,
               stalled := if kept = [] ∧ p.queue ≠ [] then false else p.stalled,
               current := some ⟨f, 0, 0, 0⟩, last := p.current } := by
  intro kept
  let kept' := p.inTransfer ++ p.waitingLines.filter fun l => !isLast l
  let notPolicy (l : PortLine) : Bool := decide (l.source ≠ LineSource.generated true)
  have shifted : notPolicy ∘ openedLine = notPolicy := by
    funext l
    exact Bool.eq_iff_iff.mpr (by simp [notPolicy, LineSource.generated, openedLine_policy])
  have queue : (p.retire f).inTransfer ++
      (p.retire f).waitingLines.filter (fun l => decide (l.source ≠ LineSource.generated true)) = kept.map openedLine := by
    show _ ++ List.filter notPolicy _ = _
    have stays : staysAtOpen = fun l => notPolicy l && !isLast l := by
      funext l; rw [staysAtOpen_iff, Bool.and_comm]; rfl
    rw [Port.retire_eq]
    simp only [kept, stays, Port.inTransfer, Port.waitingLines]
    cases p.transferring with
    | false => simp [List.filter_map, shifted]
    | true =>
      cases p.queue with
      | nil => rfl
      | cons l ls => simp [List.filter_map, shifted]
  have gen : (fun g : GenFrame => g.policy != true) = fun g => !g.policy := by funext g; simp
  have stalled :
      (if kept.map openedLine = [] ∧ kept'.map openedLine ≠ [] then false
        else if kept' = [] ∧ p.queue ≠ [] then false else p.stalled) =
      if kept = [] ∧ p.queue ≠ [] then false else p.stalled := by
    have fewer : kept' = [] → kept = [] := by
      simp only [kept, kept', List.append_eq_nil_iff, List.filter_eq_nil_iff]
      exact fun ⟨noTransfer, last⟩ => ⟨noTransfer, fun l mem => by simp [staysAtOpen_iff, last l mem]⟩
    have queued : kept' ≠ [] → p.queue ≠ [] := by
      refine mt fun empty => ?_
      simp [kept', Port.inTransfer, Port.waitingLines, empty]
    simp only [ne_eq, List.map_eq_nil_iff]
    by_cases none : kept = []
    · by_cases none' : kept' = []
      · simp [none, none']
      · simp [none, none', queued none']
    · simp [none, mt fewer none]
  rw [Port.open, Port.endGenerated_eq, queue, Port.retire_eq, gen]
  exact congrArg
    (fun b => ({ p with queue := kept.map openedLine, gen := p.gen.filter fun g => !g.policy, stalled := b,
                        current := some ⟨f, 0, 0, 0⟩, last := p.current } : Port)) stalled

end

/-- Settles O21: the open's steps are those of the model, the frame map's tiles are those the selection shows, and a
port's records, lines and policy output shift as `Port.open_eq` says. -/
theorem frameOpenReachesEveryBlock : Obligations.FrameOpenReachesEveryBlock := by
  refine ⟨?command, ?engine, fun f p => ?port⟩
  case command =>
    intro dt f w h s heard w1 w2 h1 h2 seen closed opened shown
    have arrived : ({ (s.elapse dt).forward (frameStartPacket f w h) with
        ft := ((s.elapse dt).forward (frameStartPacket f w h)).ft.packet
          ((s.elapse dt).forward (frameStartPacket f w h)).now } : State) = seen := by
      simp only [seen, State.forward_ft, State.forward_now, State.elapse_ft, State.elapse_now]
    have start : ((s.elapse dt).forward (frameStartPacket f w h)).cleared = closed :=
      congrArg (State.closeFrame Damage.ofTruncated) arrived
    have now : closed.now = s.now + dt := by
      obtain ⟨_, _, _, _, only⟩ := seen.closeFrame_only Damage.ofTruncated
      exact (congrArg State.now only).trans (by simp [seen])
    have lock : closed.ft.lock = (s.ft.packet (s.now + dt)).lock := (seen.closeFrame_lock_lastNumber _).1
    have before : ((s.elapse dt).forward (frameStartPacket f w h)).ft.lock = s.ft.lock := by simp
    have given := exec_frameStart (f := f) (w := w) (h := h) heard
    rw [State.frameStart_good ⟨⟨w1, w2⟩, h1, h2⟩, start, before] at given
    have opens : closed.frameOpened f w.toNat h.toNat = opened := State.frameOpened_at now
    have number : opened.ft.lastNumber = f := rfl
    have lockOpen : opened.ft.lock = (closed.ft.lockOpen (s.now + dt)).lock := rfl
    rw [opens] at given
    clear_value opened closed
    refine ⟨given.trans (congrArg _ ?_), ?_, lockOpen⟩
    · rw [State.noticeLock, State.openEvent_ft, number]
      rfl
    · rw [lock]
      exact s.ft.packet_lock (s.now + dt)
  case engine =>
    intro f w h s shown m t beyond
    have shows : (if s.phase = .running then s.ms.shown else ([], Rgb.black)) = shown := by
      simp only [shown]
      cases s.phase with
      | starting => rfl
      | running =>
        rw [if_pos rfl, MapStore.shown, MapStore.activeContext]
        cases s.ms.selection with
        | none | context => rfl
        | sequence es i r =>
          dsimp only
          cases es[i]? <;> rfl
    have map : s.frameMap f w h = m := by rw [State.frameMap_shown, shows]
    have beyond_iff (e : Nat × Tile) : beyondFrame m e.2 = true ↔ beyond e := beyondFrame_iff
    refine ⟨fun fits => ?_, fun as e bs split before isBeyond => ?_⟩
    · exact State.engineOpen_fits map fun e mem => eq_false_of_ne_true (mt (beyond_iff e).mp (fits e mem))
    · exact State.engineOpen_beyond map split
        (fun a mem => eq_false_of_ne_true (mt (beyond_iff a).mp (before a mem))) ((beyond_iff e).mpr isBeyond)
  case port =>
    intro waiting stays kept shifted
    have shifts : openedLine = shifted := by
      funext l
      obtain ⟨source, y, rows⟩ := l
      cases source with
      | trunk f a => cases a <;> rfl
      | policy | pattern => rfl
    rw [Port.open_eq, shifts]
    rfl

end Sys2Proof.Machine
end

section
/-!
PROOFS. Packets: when one is intact (R135, R141, R203), what a broken one does, and that the bytes of a forward-lane command
decode to it (R136).
-/

namespace Sys2Proof.Machine

/-! ## When a packet is intact -/

section
variable {lane : Lane} {bs : List Byte}

theorem checkWordMatches_iff :
    checkWordMatches bs = true ↔
      2 ≤ bs.length ∧ bs = bs.take (bs.length - 2) ++ wordBytes (crc16 (bs.take (bs.length - 2))) := by
  rw [checkWordMatches, Bool.and_eq_true, decide_eq_true_eq, beq_iff_eq]
  refine and_congr_right fun _ => ?_
  conv_rhs => lhs; rw [← List.take_append_drop (bs.length - 2) bs]
  exact List.append_cancel_left_eq .. ▸ Iff.rfl

/-- A packet is as long as its kind calls for, where its kind is one of its lane (R203). -/
def LengthOfKind (lane : Lane) (bs : List Byte) : Prop :=
  match lane, (byteAt bs 0).toNat with
  | .forward, 0x00 | .return, 0x10 => bs.length = 5
  | .forward, 0x01 => bs.length = 11
  | .forward, 0x02 => bs.length = 13 + 4 * numAt bs 9
  | .forward, 0x03 => bs.length = 9
  | .forward, 0x04 => (byteAt bs 7).toNat ≤ 60 ∧ bs.length = 10 + (byteAt bs 7).toNat
  | .return, 0x11 => (byteAt bs 8).toNat ≤ 60 ∧ bs.length = 11 + (byteAt bs 8).toNat
  | .return, 0x12 => bs.length = 17
  | _, _ => True

/-- The test of a length that a kind may call for. -/
def fitsLength (bs : List Byte) : Option (Option Nat) → Bool
  | none => true
  | some none => false
  | some (some n) => n == bs.length

theorem fitsLength_some {n : Nat} : fitsLength bs (some (some n)) = true ↔ bs.length = n := by
  rw [fitsLength, beq_iff_eq, eq_comm]

theorem fitsLength_atMost {m n : Nat} :
    fitsLength bs (some (if m ≤ 60 then some n else none)) = true ↔ m ≤ 60 ∧ bs.length = n := by
  split
  · exact fitsLength_some.trans (iff_and_self.mpr fun _ => ‹_›)
  · exact iff_of_false Bool.false_ne_true fun both => absurd both.1 ‹_›

theorem fitsLength_kindLength : fitsLength bs (kindLength lane bs) = true ↔ LengthOfKind lane bs := by
  unfold kindLength LengthOfKind
  generalize (byteAt bs 0).toNat = k
  split
  case h_5 | h_7 => exact fitsLength_atMost
  case h_9 => split <;> first | contradiction | exact iff_of_true rfl trivial
  all_goals exact fitsLength_some

theorem lengthConsistent_iff :
    lengthConsistent lane bs = true ↔
      numAt bs 1 = bs.length ∧ 5 ≤ bs.length ∧ bs.length ≤ 4096 ∧ LengthOfKind lane bs := by
  rw [← fitsLength_kindLength]
  simp only [lengthConsistent, Bool.and_eq_true, beq_iff_eq, decide_eq_true_eq, and_assoc]
  rfl

theorem dropReason_checkWord (broken : ¬checkWordMatches bs = true) : dropReason lane bs = some .checkWord := by
  rw [dropReason, if_pos (by simpa using broken)]

theorem dropReason_length (matched : checkWordMatches bs = true) (wrong : ¬lengthConsistent lane bs = true) :
    dropReason lane bs = some .length := by
  rw [dropReason, if_neg (by simp [matched]), if_pos (by simpa using wrong)]

theorem dropReason_none (matched : checkWordMatches bs = true) (right : lengthConsistent lane bs = true) :
    dropReason lane bs = none := by
  rw [dropReason, if_neg (by simp [matched]), if_neg (by simp [right])]

end

/-! ## A packet that is dropped -/

theorem Downlink.holdOut_iff {d : Downlink} :
    d.holdOut = true ↔ 4 ≤ d.buffer.length ∨ (d.buffer.length = 3 ∧ d.receiving = true) := by
  simp [Downlink.holdOut]
  rfl

/-- The link timer follows a change of the HOLD output while the link is UP (R140). -/
theorem Downlink.followHold_eq (now : Nat) (before : Bool) (d : Downlink) :
    d.followHold now before = { d with
      linkTimer := if d.up = true ∧ before ≠ d.holdOut then (if d.holdOut = true then none else some (now + 2000))
                   else d.linkTimer } := by
  unfold Downlink.followHold
  split
  case isTrue still =>
    have stands : ¬(d.up = true ∧ before ≠ d.holdOut) := fun ⟨up, moved⟩ => by simp [up, moved] at still
    rw [if_neg stands]
  case isFalse moved =>
    have moved : d.up = true ∧ before ≠ d.holdOut := by simpa using moved
    rw [if_pos moved]
    rfl

/-- A change that cannot raise the HOLD output starts the timer where it lowers it. -/
theorem Downlink.followHold_falls {d : Downlink} {before : Bool} (noRise : d.holdOut = true → before = true) (now : Nat) :
    d.followHold now before = { d with
      linkTimer := if d.up = true ∧ before = true ∧ d.holdOut = false then some (now + 2000) else d.linkTimer } := by
  rw [Downlink.followHold_eq]
  cases before <;> cases after : d.holdOut <;> simp_all

/-- A change that cannot lower the HOLD output stops the timer where it raises it. -/
theorem Downlink.followHold_rises {d : Downlink} {before : Bool} (noFall : before = true → d.holdOut = true) (now : Nat) :
    d.followHold now before = { d with
      linkTimer := if d.up = true ∧ before = false ∧ d.holdOut = true then none else d.linkTimer } := by
  rw [Downlink.followHold_eq]
  cases before <;> cases after : d.holdOut <;> simp_all

/-- The end of a reception starts the link timer where it lowers the HOLD output of a link that is UP (R140). -/
theorem State.changeDown_ended (s : State) :
    (s.changeDown fun d => { d with receiving := false }) =
      { s with dn := { s.dn with
          receiving := false,
          linkTimer := if s.dn.up = true ∧ s.holdOut = true ∧ ({ s.dn with receiving := false } : Downlink).holdOut = false
                       then some (s.now + 2000) else s.dn.linkTimer } } := by
  refine congrArg (fun d => { s with dn := d }) (Downlink.followHold_falls (fun high => ?_) s.now)
  rw [Downlink.holdOut_iff] at *
  exact high.imp_right fun three => by simp at three

theorem State.dropPacket_reason {lane : Lane} {bytes : List Byte} {r : DropReason} (reason : dropReason lane bytes = some r)
    (s : State) : s.dropPacket lane bytes = s.raise (.trunkIntegrity lane r (byteAt bytes 0)) := by
  rw [State.dropPacket, reason]

/-- Settles O19, from when a packet is dropped and what the end of a reception does at the Downstream port. -/
theorem brokenPacketsAreDropped : Obligations.BrokenPacketsAreDropped := by
  intro dt bytes s heard
  refine ⟨fun r reason => ?forward, fun idle => ?lost, ?returned, fun lane => ?reason⟩
  case forward =>
    show execForwardPacketDropped dt bytes s = _
    rw [execForwardPacketDropped, State.receive_heard heard, State.dropPacket_reason reason]
  case lost =>
    show execReturnPacketDropped dt bytes s = _
    exact State.completeReception_lost idle dt _
  case returned =>
    intro r receiving reason dn timer
    show execReturnPacketDropped dt bytes s = _
    rw [execReturnPacketDropped, State.completeReception_taken heard receiving, State.changeDown_ended,
      State.dropPacket_reason reason]
    rfl
  case reason =>
    intro body matched at1 ofKind lengths
    have matched_iff : checkWordMatches bytes = true ↔ matched := checkWordMatches_iff
    have lengths_iff : lengthConsistent lane bytes = true ↔ lengths := lengthConsistent_iff
    exact ⟨fun broken => dropReason_checkWord (mt matched_iff.mp broken),
      fun matched wrong => dropReason_length (matched_iff.mpr matched) (mt lengths_iff.mp wrong),
      fun matched right => dropReason_none (matched_iff.mpr matched) (lengths_iff.mpr right)⟩

/-! ## The bytes of a packet -/

section
variable {kind : Byte} {fields : List Byte} {lane : Lane}

theorem packet_length (kind : Byte) (fields : List Byte) : (packet kind fields).length = 5 + fields.length := by
  simp [packet, bytes2, wordBytes]
  omega

theorem packet_body (kind : Byte) (fields : List Byte) :
    (packet kind fields).take ((packet kind fields).length - 2) = kind :: (bytes2 (5 + fields.length) ++ fields) := by
  rw [packet_length]
  exact List.take_left' (by simp [bytes2]; omega)

/-- What stands between the length field and the check word are the packet's fields. -/
theorem packet_fields (kind : Byte) (fields : List Byte) :
    ((packet kind fields).take ((packet kind fields).length - 2)).drop 3 = fields := by
  rw [packet_body]
  rfl

theorem checkWordMatches_packet (kind : Byte) (fields : List Byte) : checkWordMatches (packet kind fields) = true := by
  rw [checkWordMatches_iff, packet_body, packet_length]
  exact ⟨by omega, rfl⟩

/-- A packet that fits, of the length its kind calls for, is intact (R203). -/
theorem dropReason_packet (fits : 5 + fields.length ≤ 4096) (ofKind : LengthOfKind lane (packet kind fields)) :
    dropReason lane (packet kind fields) = none := by
  refine dropReason_none (checkWordMatches_packet ..) (lengthConsistent_iff.mpr ⟨?_, ?_, ?_, ofKind⟩)
  · rw [packet_length]
    exact num2_bytes _ (by omega)
  · rw [packet_length]
    omega
  · rw [packet_length]
    exact fits

end

theorem pixelOf_bytes (p : PixelWord) :
    pixelOf (byteOf (p.toNat / 16777216)) (byteOf (p.toNat / 65536)) (byteOf (p.toNat / 256)) (byteOf p.toNat) = p := by
  have low : num2 (byteOf (p.toNat / 256)) (byteOf p.toNat) = p.toNat % 65536 := by
    simp [num2, byteOf]
    omega
  have high : num2 (byteOf (p.toNat / 16777216)) (byteOf (p.toNat / 65536)) = p.toNat / 65536 := by
    have := p.isLt
    simp [num2, byteOf]
    omega
  rw [pixelOf, low, high, Nat.div_add_mod']
  simp

theorem pixelsOf_bytes (pixels : List PixelWord) : pixelsOf (pixels.flatMap pixelBytes) = pixels := by
  induction pixels with
  | nil => rfl
  | cons p rest ih =>
    rw [List.flatMap_cons]
    exact congrArg₂ List.cons (pixelOf_bytes p) ih

theorem pixelBytes_length (pixels : List PixelWord) : (pixels.flatMap pixelBytes).length = 4 * pixels.length := by
  induction pixels with
  | nil => rfl
  | cons p rest ih =>
    rw [List.flatMap_cons, List.length_append, ih, List.length_cons, Nat.mul_add_one, Nat.add_comm]
    rfl

/-! ## What the bytes of each forward-lane packet decode to -/

section
variable {dt : Nat} {address : Byte}

theorem decodeForward_dropped {bytes : List Byte} (broken : (dropReason .forward bytes).isSome = true) :
    decodeForward dt address bytes = .forwardPacketDropped dt bytes := if_pos broken

/-- A packet that is not dropped is read by its kind (R136). -/
theorem decodeForward_packet {kind : Byte} {fields : List Byte} (fits : 5 + fields.length ≤ 4096)
    (ofKind : LengthOfKind .forward (packet kind fields)) :
    decodeForward dt address (packet kind fields) =
      match kind.toNat with
      | 0 => .idle dt
      | 1 => .frameStart dt (word2 (byteAt (packet kind fields) 3) (byteAt (packet kind fields) 4))
               (word2 (byteAt (packet kind fields) 5) (byteAt (packet kind fields) 6))
               (word2 (byteAt (packet kind fields) 7) (byteAt (packet kind fields) 8))
      | 2 => .line dt (word2 (byteAt (packet kind fields) 3) (byteAt (packet kind fields) 4))
               (word2 (byteAt (packet kind fields) 5) (byteAt (packet kind fields) 6))
               (word2 (byteAt (packet kind fields) 7) (byteAt (packet kind fields) 8)) (pixelsOf (fields.drop 8))
      | 3 => .frameEnd dt (word2 (byteAt (packet kind fields) 3) (byteAt (packet kind fields) 4))
               (word2 (byteAt (packet kind fields) 5) (byteAt (packet kind fields) 6))
      | 4 => controlInstr dt address (byteAt (packet kind fields) 6)
               ⟨byteAt (packet kind fields) 3, byteAt (packet kind fields) 4, byteAt (packet kind fields) 5,
                fields.drop 5⟩
      | _ => .forwardUnknownKind dt (packet kind fields) := by
  rw [decodeForward, if_neg (by simp [dropReason_packet fits ofKind]), packet_fields]
  rfl

theorem decodeForward_idle : decodeForward dt address idlePacket = .idle dt :=
  decodeForward_packet (by simp) rfl

theorem decodeForward_frameStart (f w h : Word) :
    decodeForward dt address (frameStartPacket f w h) = .frameStart dt f w h := by
  refine (decodeForward_packet (by simp [wordBytes, bytes2]) (by exact rfl)).trans ?_
  exact congr (congr (congrArg (Instr.frameStart dt) (word2_bytes f)) (word2_bytes w)) (word2_bytes h)

theorem decodeForward_frameEnd (f runs : Word) : decodeForward dt address (frameEndPacket f runs) = .frameEnd dt f runs := by
  refine (decodeForward_packet (by simp [wordBytes, bytes2]) (by exact rfl)).trans ?_
  exact congr (congrArg (Instr.frameEnd dt) (word2_bytes f)) (word2_bytes runs)

theorem decodeForward_line {f y x0 : Word} {pixels : List PixelWord} (fits : 13 + 4 * pixels.length ≤ 4096) :
    decodeForward dt address (linePacket f y x0 pixels) = .line dt f y x0 pixels := by
  have length : (wordBytes f ++ wordBytes y ++ wordBytes x0 ++ bytes2 pixels.length ++
      pixels.flatMap pixelBytes).length = 8 + 4 * pixels.length := by
    rw [List.length_append, pixelBytes_length]
    rfl
  have count : numAt (linePacket f y x0 pixels) 9 = pixels.length := num2_bytes _ (by omega)
  have ofKind : (linePacket f y x0 pixels).length = 13 + 4 * numAt (linePacket f y x0 pixels) 9 := by
    rw [count, linePacket, packet_length, length]
    omega
  refine (decodeForward_packet (by omega) (by exact ofKind)).trans ?_
  exact congr (congr (congr (congrArg (Instr.line dt) (word2_bytes f)) (word2_bytes y)) (word2_bytes x0))
    (pixelsOf_bytes pixels)

theorem decodeForward_control {kind : Byte} {c : Ctl} (wf : c.wf = true) :
    decodeForward dt address (controlPacket kind c) = controlInstr dt address kind c := by
  have few : c.ops.length ≤ 60 := of_decide_eq_true wf
  have count : (byteAt (controlPacket kind c) 7).toNat = c.ops.length := byteOf_toNat (by omega)
  have ofKind : LengthOfKind .forward (controlPacket kind c) := by
    show (byteAt _ 7).toNat ≤ 60 ∧ (controlPacket kind c).length = 10 + (byteAt _ 7).toNat
    rw [count, controlPacket, packet_length]
    exact ⟨few, by simp; omega⟩
  exact decodeForward_packet (by simp; omega) ofKind

theorem decodeForward_unknown {bytes : List Byte} (intact : (dropReason .forward bytes).isNone = true)
    (unknown : 4 < (byteAt bytes 0).toNat) : decodeForward dt address bytes = .forwardUnknownKind dt bytes := by
  obtain ⟨k, kind⟩ := Nat.exists_eq_add_of_lt unknown
  rw [decodeForward, if_neg (by simpa using intact), kind, Nat.add_right_comm, Nat.add_comm 4 1, Nat.add_comm]
  rfl

end

/-- Settles O10, by the command: a packet's fields are read back by kind, and a request's kind by its code. What is no
packet has no bytes. -/
theorem forwardPacketDecodesToItsCommand : Obligations.ForwardPacketDecodesToItsCommand := by
  intro dt address i bytes wf written
  cases i
  case forwardPacketDropped d b =>
    cases written
    rintro rfl
    exact decodeForward_dropped wf
  case frameStart =>
    cases written
    rintro rfl
    exact decodeForward_frameStart ..
  case line =>
    cases written
    rintro rfl
    exact decodeForward_line (of_decide_eq_true wf)
  case frameEnd =>
    cases written
    rintro rfl
    exact decodeForward_frameEnd ..
  case idle =>
    cases written
    rintro rfl
    exact decodeForward_idle
  case forwardUnknownKind =>
    cases written
    rintro rfl
    obtain ⟨intact, unknown⟩ := Bool.and_eq_true .. ▸ wf
    exact decodeForward_unknown intact (of_decide_eq_true unknown)
  case controlNotAddressed =>
    cases written
    exact (decodeForward_control wf).trans
  case unknownRequest =>
    cases written
    exact (decodeForward_control (Bool.and_eq_true .. ▸ wf).2).trans
  all_goals cases written
  all_goals exact fun decoded => (decodeForward_control wf).trans (decoded _ _ rfl)

end Sys2Proof.Machine
end

section
/-!
PROOFS. Tile ports and the Tile Engine: transfers and stalls (R90, R92), port lines (R85, R91), runs (R79 to R81), and
generated frames (R97 to R103).
-/

namespace Sys2Proof.Machine

/-! ## Transfers and stalls -/

section
variable {p : Port} {s : State}

theorem Port.keepStall_waiting (waits : p.waiting = true) (now : Nat) :
    p.keepStall now =
      { p with stallTimer := if p.stallTimer = none ∧ p.stalled = false then some (now + 5000) else p.stallTimer } := by
  rw [Port.keepStall, if_pos waits, apply_ite (fun t => ({ p with stallTimer := t } : Port))]
  simp only [Bool.and_eq_true, Option.isNone_iff_eq_none, Bool.not_eq_true']
  rfl

theorem Port.keepStall_calm (calm : p.waiting = false) (now : Nat) :
    p.keepStall now = { p with stallTimer := none } := by
  rw [Port.keepStall, calm]
  rfl

theorem Port.complete_head {l : PortLine} {rest : List PortLine} (queue : p.queue = l :: rest) :
    p.complete = Port.countDelivered { p with queue := rest, transferring := false } l := by
  rw [Port.complete, queue]

theorem Port.headFrame_eq (p : Port) :
    p.headFrame = p.queue.head?.bind fun l =>
      match l.source with | .trunk f _ => some f | .policy | .pattern => none := by
  rw [Port.headFrame]
  cases p.queue.head? with
  | none => rfl
  | some l => rfl

end

/-- Settles O56, from when a line starts and when lines wait. -/
theorem portsTransferAndStall : Obligations.PortsTransferAndStall := by
  intro dt i s p t
  refine ⟨fun q => ⟨fun l rest enabled idle ready queue => ?starts, fun idle low queued => ?waits,
    fun quiet => ?quiet⟩, rfl, rfl, fun l rest released busy queue => ?ended, fun t0 released runs => ?stalled⟩
  case starts =>
    have starts : q.starting = some l := by simp [Port.starting, enabled, idle, ready, queue]
    exact State.setPort_starts starts
  case waits =>
    have starts : q.starting = none := by simp [Port.starting, low]
    have waits : q.waiting = true := by simp [Port.waiting, queued, idle, low]
    rw [State.setPort_idle starts, Port.keepStall_waiting waits]
  case quiet =>
    have starts : q.starting = none := by
      rcases quiet with busy | empty | ⟨-, off⟩
      · simp [Port.starting, busy]
      · simp [Port.starting, empty]
      · simp [Port.starting, off]
    have calm : q.waiting = false := by
      rcases quiet with busy | empty | ⟨ready, -⟩
      · simp [Port.waiting, busy]
      · simp [Port.waiting, empty]
      · simp [Port.waiting, ready]
    rw [State.setPort_idle starts, Port.keepStall_calm calm]
  case ended =>
    intro q more
    have stands : exec (.transferCompletion dt i) s = .next (t.setPort i p.complete) := by
      show execTransferCompletion dt i s = _
      rw [execTransferCompletion, State.take_released released, if_pos (by exact busy)]
      rfl
    rw [stands, Port.complete_head queue, Port.countDelivered]
    rcases l with ⟨⟨f, _ | _ | _⟩ | _ | _, y, rows⟩ <;> rfl
  case stalled =>
    intro head
    have named : p.headFrame = head := p.headFrame_eq
    show execStallTimerExpiry dt i s = _
    have runs : (s.elapse dt).ports[i].stallTimer = some t0 := runs
    rw [execStallTimerExpiry, State.take_released released]
    simp only [runs]
    rw [← named]
    rfl

/-! ## Chain lists (R7) -/

section
variable {e : Nat × Tile} {ts : Slotted} {p : Fin 8}

theorem insertByPos_perm (e : Nat × Tile) (ts : Slotted) : (insertByPos e ts).Perm (e :: ts) := by
  induction ts with
  | nil => exact .refl _
  | cons f ts ih =>
    rw [insertByPos]
    split
    · exact .refl _
    · exact (ih.cons f).trans (.swap ..)

theorem insertByPos_sorted (sorted : ts.Pairwise fun a b => a.2.pos ≤ b.2.pos) :
    (insertByPos e ts).Pairwise fun a b => a.2.pos ≤ b.2.pos := by
  induction ts with
  | nil => exact List.pairwise_singleton ..
  | cons f ts ih =>
    obtain ⟨first, rest⟩ := List.pairwise_cons.mp sorted
    rw [insertByPos]
    split
    case isTrue lower =>
      refine List.pairwise_cons.mpr ⟨fun g within => ?_, sorted⟩
      rcases List.mem_cons.mp within with rfl | later
      · exact le_of_lt lower
      · exact (le_of_lt lower).trans (first g later)
    case isFalse notLower =>
      refine List.pairwise_cons.mpr ⟨fun g within => ?_, ih rest⟩
      rcases List.mem_cons.mp ((insertByPos_perm e ts).mem_iff.mp within) with rfl | later
      · exact not_lt.mp notLower
      · exact first g later

theorem foldl_insertByPos (ts : Slotted) {done : Slotted} (sorted : done.Pairwise fun a b => a.2.pos ≤ b.2.pos) :
    (ts.foldl (fun l e => insertByPos e l) done).Perm (done ++ ts) ∧
      (ts.foldl (fun l e => insertByPos e l) done).Pairwise fun a b => a.2.pos ≤ b.2.pos := by
  induction ts generalizing done with
  | nil => exact ⟨by rw [List.append_nil]; exact .refl _, sorted⟩
  | cons e ts ih =>
    obtain ⟨perm, ordered⟩ := ih (insertByPos_sorted (e := e) sorted)
    exact ⟨perm.trans (((insertByPos_perm e done).append_right ts).trans List.perm_middle.symm), ordered⟩

theorem chainList_perm (ts : Slotted) (p : Fin 8) :
    (chainList ts p).Perm (ts.filter fun e => decide (e.2.port = p)) := (foldl_insertByPos _ .nil).1

theorem chainList_sorted (ts : Slotted) (p : Fin 8) : (chainList ts p).Pairwise fun a b => a.2.pos ≤ b.2.pos :=
  (foldl_insertByPos _ .nil).2

/-- The tiles of a port's chain list on a raster line, in chain order, are those of the port that cover it. -/
theorem chainList_covering (ts : Slotted) (p : Fin 8) (y : Nat) :
    ((chainList ts p).filter fun e => e.2.coversLine y).Perm
      (ts.filter fun e => decide (e.2.port = p ∧ e.2.y ≤ y ∧ y < e.2.y + e.2.h)) := by
  refine ((chainList_perm ts p).filter _).trans ?_
  rw [List.filter_filter]
  refine .of_eq (List.filter_congr fun e _ => ?_)
  simp only [Tile.coversLine, Bool.decide_and, Bool.and_comm]

end

/-! ## Port lines -/

section
variable {m : FrameMap} {rows : List RowProgress} {y : Nat} {p : Fin 8}

theorem portLine_off (off : m.enabled[p] = false) : portLine m rows y p = none := by
  rw [portLine, off]
  rfl

theorem portLine_uncovered (empty : ((chainList m.tiles p).filter fun e => e.2.coversLine y) = []) :
    portLine m rows y p = none := by
  rw [portLine, empty]
  split <;> rfl

theorem portLine_covered (on : m.enabled[p] = true)
    (nonempty : ((chainList m.tiles p).filter fun e => e.2.coversLine y) ≠ []) :
    portLine m rows y p =
      some ⟨.trunk m.number .current, y,
        ((chainList m.tiles p).filter fun e => e.2.coversLine y).map (trunkRow m rows y)⟩ := by
  rw [portLine, if_pos on]
  split
  · contradiction
  · rfl

/-- A row on which nothing was received. -/
theorem trunkRow_skipped {e : Nat × Tile} (wide : 1 ≤ e.2.w) :
    (trunkRow m [] y e).kind = .filled ∧ (trunkRow m [] y e).pixels = List.replicate e.2.w m.fill := by
  have cols : colsOf [] e = List.replicate e.2.w none := rfl
  have notEmpty : e.2.w ≠ 0 := by omega
  simp [trunkRow, rowKind, cols, notEmpty]

end

section
variable {p : Port} {l : PortLine}

theorem Port.refuses_iff : (!p.config.enabled || p.config.forced.isSome || p.releasePending) = true ↔
    p.config.enabled = false ∨ p.config.forced ≠ none ∨ p.releasePending = true := by
  simp [or_assoc, Option.isSome_iff_ne_none]

theorem Port.hand_refused (refuses : p.config.enabled = false ∨ p.config.forced ≠ none ∨ p.releasePending = true) :
    p.hand l = (p.countDropped l, false) := by
  rw [Port.hand, if_pos (Port.refuses_iff.mpr refuses)]

theorem Port.hand_full (takes : ¬(p.config.enabled = false ∨ p.config.forced ≠ none ∨ p.releasePending = true))
    (full : 8 ≤ p.queue.length) : p.hand l = (p.countDropped l, true) := by
  rw [Port.hand, if_neg (mt Port.refuses_iff.mp takes), if_pos (by exact full)]

theorem Port.hand_room (takes : ¬(p.config.enabled = false ∨ p.config.forced ≠ none ∨ p.releasePending = true))
    (room : p.queue.length < 8) :
    p.hand l = ({ p with queue := p.queue ++ [l],
                         current := p.current.map fun t => { t with queued := t.queued + l.rows.length } }, false) := by
  rw [Port.hand, if_neg (mt Port.refuses_iff.mp takes), if_neg (by exact not_le.mpr room)]

theorem Port.countDropped_current {f : Word} {c : Tally} (source : l.source = .trunk f .current)
    (record : p.current = some c) :
    p.countDropped l = { p with current := some { c with dropped := c.dropped + l.rows.length } } := by
  simp only [Port.countDropped, source, Port.tally, record, Option.map_some]

end

theorem State.handLine_eq {i : Fin 8} {f : Word} {l : PortLine} {s : State} {q : Port} {full : Bool}
    (handed : s.ports[i].hand l = (q, full)) :
    s.handLine i f l = (if full then s.raise (.portOverrun i f l.y) else s).setPort i q := by
  rw [State.handLine, handed]

/-- Settles O27, from the chain list as a sorted list of the port's tiles and what a port answers a line handed. -/
theorem portLinesAreFormedAndHanded : Obligations.PortLinesAreFormedAndHanded := by
  refine ⟨fun m rows y p => ?formed, fun i f l c s source record => ?handed⟩
  case formed =>
    intro covers
    have tiles : ((chainList m.tiles p).filter fun e => e.2.coversLine y).Perm
        (m.tiles.filter fun e => decide (covers e)) := chainList_covering m.tiles p y
    have covered : ((chainList m.tiles p).filter fun e => e.2.coversLine y) = [] ↔ ∀ e ∈ m.tiles, ¬covers e := by
      rw [← List.perm_nil, tiles.congr_left, List.perm_nil, List.filter_eq_nil_iff]
      simp only [decide_eq_true_eq]
    refine ⟨?_, fun on ⟨e, within, covers⟩ => ?_, fun l wide line r row => ?_⟩
    · rintro (off | uncovered)
      · exact portLine_off off
      · exact portLine_uncovered (covered.mpr uncovered)
    · exact ⟨_, _, portLine_covered on fun empty => covered.mp empty e within covers, rfl, rfl, tiles,
        (chainList_sorted m.tiles p).filter _, rfl⟩
    · have on : m.enabled[p] = true := by
        by_contra off
        rw [portLine_off (Bool.eq_false_iff.mpr off)] at line
        cases line
      have nonempty : ((chainList m.tiles p).filter fun e => e.2.coversLine y) ≠ [] := fun empty => by
        rw [portLine_uncovered empty] at line
        cases line
      rw [portLine_covered on nonempty] at line
      cases line
      obtain ⟨e, covering, rfl⟩ := List.mem_map.mp row
      have within : e ∈ m.tiles := List.mem_of_mem_filter (tiles.mem_iff.mp covering)
      obtain ⟨kind, pixels⟩ := trunkRow_skipped (m := m) (y := y) (wide e within)
      exact ⟨kind, e, within, pixels⟩
  case handed =>
    intro p refuses dropped
    have counted : p.countDropped l = dropped := Port.countDropped_current source record
    refine ⟨fun refused => ?_, fun takes full => ?_, fun takes room => ?_⟩
    · exact (State.handLine_eq (Port.hand_refused refused)).trans (congrArg (s.setPort i) counted)
    · exact (State.handLine_eq (Port.hand_full takes full)).trans (congrArg (State.setPort i · _) counted)
    · refine (State.handLine_eq (Port.hand_room takes room)).trans ?_
      rw [record]
      rfl

/-! ## Cutting runs -/

section
variable {tables : Vector Curves 8} {m : FrameMap} {y x0 : Nat} {px : List PixelWord} {rows : List RowProgress}
  {e : Nat × Tile}

theorem colsOf_congr {rows' : List RowProgress}
    (same : (rows.find? fun r => r.slot == e.1) = rows'.find? fun r => r.slot == e.1) : colsOf rows e = colsOf rows' e := by
  rw [colsOf, same, colsOf]

/-- Tiles whose slots are all different are told apart by their slots. -/
theorem eq_of_slot {ts : Slotted} (slots : (ts.map Prod.fst).Nodup) {f : Nat × Tile} (he : e ∈ ts) (hf : f ∈ ts)
    (same : f.1 = e.1) : f = e := List.inj_on_of_nodup_map slots hf he same

/-- A tile that takes nothing of a run keeps its columns. -/
theorem colsOf_rowsAfter_other (slots : (m.tiles.map Prod.fst).Nodup) (tile : e ∈ m.tiles)
    (passes : takesRun m y x0 px.length e = false) : colsOf (rowsAfter tables m y x0 px rows) e = colsOf rows e := by
  have absent : ∀ f ∈ m.tiles.filter (takesRun m y x0 px.length), f.1 ≠ e.1 := fun f taking same => by
    obtain ⟨within, takes⟩ := List.mem_filter.mp taking
    rw [eq_of_slot slots tile within same, passes] at takes
    cases takes
  have noNew : (((m.tiles.filter (takesRun m y x0 px.length)).map (rowAfter tables x0 px rows)).find?
      fun r => r.slot == e.1) = none := by
    rw [List.find?_eq_none]
    rintro r row
    obtain ⟨f, taking, rfl⟩ := List.mem_map.mp row
    simpa [rowAfter] using absent f taking
  refine colsOf_congr ?_
  rw [rowsAfter, List.find?_append, noNew, Option.or_none, List.find?_filter]
  refine List.find?_congr fun r _ => ?_
  by_cases same : r.slot = e.1
  · simpa [same] using absent
  · simp [same]

/-- A tile that takes pixels of a run has each of its columns as the run leaves it. -/
theorem colsOf_rowsAfter_taking (slots : (m.tiles.map Prod.fst).Nodup) (tile : e ∈ m.tiles)
    (takes : takesRun m y x0 px.length e = true) :
    colsOf (rowsAfter tables m y x0 px rows) e =
      (colsOf rows e).zipIdx.map fun c => columnAfter tables e.2 x0 px c.2 c.1 := by
  have taking : e ∈ m.tiles.filter (takesRun m y x0 px.length) := List.mem_filter.mpr ⟨tile, takes⟩
  have noOld : ((rows.filter fun r => !(m.tiles.filter (takesRun m y x0 px.length)).any fun f => f.1 == r.slot).find?
      fun r => r.slot == e.1) = none := by
    rw [List.find?_eq_none]
    intro r kept same
    have dropped := (List.mem_filter.mp kept).2
    have named : (m.tiles.filter (takesRun m y x0 px.length)).any (fun f => f.1 == e.1) = true :=
      List.any_eq_true.mpr ⟨e, taking, beq_self_eq_true _⟩
    rw [eq_of_beq same, named] at dropped
    cases dropped
  have first : ((m.tiles.filter (takesRun m y x0 px.length)).find? fun f => f.1 == e.1) = some e := by
    cases found : (m.tiles.filter (takesRun m y x0 px.length)).find? fun f => f.1 == e.1 with
    | none => exact absurd (beq_self_eq_true e.1) (List.find?_eq_none.mp found e taking)
    | some f =>
      have same : f.1 = e.1 := by simpa using List.find?_some found
      rw [eq_of_slot slots tile (List.mem_of_mem_filter (List.mem_of_find?_eq_some found)) same]
  have new : (((m.tiles.filter (takesRun m y x0 px.length)).map (rowAfter tables x0 px rows)).find?
      fun r => r.slot == e.1) = some (rowAfter tables x0 px rows e) := by
    rw [List.find?_map]
    exact congrArg (Option.map (rowAfter tables x0 px rows)) first
  rw [rowsAfter, colsOf, List.find?_append, noOld, Option.none_or, new]
  rfl

theorem takesRun_iff {n : Nat} : takesRun m y x0 n e = true ↔
    (m.enabled[e.2.port] = true ∧ e.2.y ≤ y ∧ y < e.2.y + e.2.h) ∧ e.2.x < x0 + n ∧ x0 < e.2.x + e.2.w := by
  simp only [takesRun, Tile.coversLine, Bool.and_eq_true, decide_eq_true_eq, and_assoc]

/-- The source column of a tile column lies in the tile (R79). -/
theorem sourceColumn_within {t : Tile} {i : Nat} (h : i < t.w) : t.x ≤ sourceColumn t i ∧ sourceColumn t i < t.x + t.w := by
  unfold sourceColumn
  split <;> omega

theorem columnAfter_outside {t : Tile} {i : Nat} {v : Option Rgb}
    (outside : sourceColumn t i < x0 ∨ x0 + px.length ≤ sourceColumn t i) : columnAfter tables t x0 px i v = v := by
  unfold columnAfter
  dsimp only
  split
  · rw [List.getElem?_eq_none (by omega)]
  · rfl

theorem columnAfter_inside {t : Tile} {i : Nat} {v : Option Rgb} {p : PixelWord} (past : x0 ≤ sourceColumn t i)
    (pixel : px[sourceColumn t i - x0]? = some p) :
    columnAfter tables t x0 px i v = some (correctPixel tables t p) := by
  rw [columnAfter, if_pos past, pixel]

/-- One column of a tile on whose line a run is accepted. -/
theorem colsOf_rowsAfter (slots : (m.tiles.map Prod.fst).Nodup) (tile : e ∈ m.tiles)
    (covers : m.enabled[e.2.port] = true ∧ e.2.y ≤ y ∧ y < e.2.y + e.2.h) {i : Nat} {v : Option Rgb} (column : i < e.2.w)
    (before : (colsOf rows e)[i]? = some v) :
    (colsOf (rowsAfter tables m y x0 px rows) e)[i]? = some (columnAfter tables e.2 x0 px i v) := by
  by_cases takes : takesRun m y x0 px.length e = true
  · rw [colsOf_rowsAfter_taking slots tile takes, List.getElem?_map, List.getElem?_zipIdx, before]
    simp
  · have apart : ¬(e.2.x < x0 + px.length ∧ x0 < e.2.x + e.2.w) := fun meets => takes (takesRun_iff.mpr ⟨covers, meets⟩)
    have within := sourceColumn_within column
    rw [colsOf_rowsAfter_other slots tile (Bool.eq_false_iff.mpr takes), before, columnAfter_outside (by omega)]

end

theorem State.engineRun_eq {s : State} {k : Work} (works : s.te = some k) (y x0 : Nat) (px : List PixelWord) :
    s.engineRun y x0 px =
      { s.linesComplete k.map k.rows k.front (y - k.front) with
        te := some { k with
          front := y, rows := rowsAfter s.cu.tables k.map y x0 px (if k.front < y then [] else k.rows) } } := by
  obtain ⟨_, _, _, _, only⟩ := onlyPicture_completeLines k.map (y - k.front) k.rows k.front s
  have tables : (s.linesComplete k.map k.rows k.front (y - k.front)).cu = s.cu := by
    rw [← State.completeLines_eq, only]
  rw [State.engineRun, works]
  dsimp only
  rw [State.completeLines_eq, tables]

/-- Settles O26, from the lines that complete and one column after a run. -/
theorem acceptedRunFillsTileColumns : Obligations.AcceptedRunFillsTileColumns := by
  intro y x0 px k s works slots before
  refine ⟨_, State.engineRun_eq works y x0 px, rfl, rfl, fun e tile => ?_⟩
  intro takes
  refine ⟨fun passes => ?passes, fun covers i v column held => ?takes⟩
  case passes =>
    refine colsOf_rowsAfter_other slots tile (Bool.eq_false_iff.mpr fun taken => passes ?_)
    exact (takesRun_iff.mp taken).1
  case takes =>
    intro col
    have after := colsOf_rowsAfter (tables := s.cu.tables) (x0 := x0) (px := px) slots tile covers column held
    refine ⟨fun outside => ?outside, fun p past pixel => ?inside⟩
    case outside => exact after.trans (congrArg some (columnAfter_outside outside))
    case inside =>
      intro out
      exact after.trans (congrArg some (columnAfter_inside past pixel))

/-! ## The lines of a generated frame (R99) -/

section
variable {g : GenFrame} {y : Nat}

/-- A tile of the frame covers a raster line from `nextY` on. -/
def GenFrame.Remaining (g : GenFrame) (y : Nat) : Prop := g.nextY ≤ y ∧ ∃ e ∈ g.tiles, e.2.y ≤ y ∧ y < e.2.y + e.2.h

/-- For each tile that reaches beyond `nextY`, its first raster line from there on. -/
def GenFrame.firstLines (g : GenFrame) : List Nat :=
  (g.tiles.filter fun e => decide (g.nextY < e.2.y + e.2.h)).map fun e => max g.nextY e.2.y

theorem GenFrame.nextLine_eq (g : GenFrame) : g.nextLine = g.firstLines.min? := by
  unfold GenFrame.nextLine GenFrame.firstLines
  split
  case h_1 none => rw [none, List.min?_nil]
  case h_2 some => rw [some, List.min?_cons']

theorem GenFrame.firstLines_remaining (tall : ∀ e ∈ g.tiles, 1 ≤ e.2.h) (first : y ∈ g.firstLines) : g.Remaining y := by
  obtain ⟨e, reaches, rfl⟩ := List.mem_map.mp first
  obtain ⟨tile, reaches⟩ := List.mem_filter.mp reaches
  have reaches : g.nextY < e.2.y + e.2.h := of_decide_eq_true reaches
  have := tall e tile
  exact ⟨by omega, e, tile, by omega, by omega⟩

theorem GenFrame.Remaining.firstLine (remains : g.Remaining y) : ∃ z ∈ g.firstLines, z ≤ y := by
  obtain ⟨from', e, tile, top, bottom⟩ := remains
  exact ⟨max g.nextY e.2.y,
    List.mem_map_of_mem (List.mem_filter.mpr ⟨tile, decide_eq_true (by omega)⟩), by omega⟩

theorem GenFrame.nextLine_none (tall : ∀ e ∈ g.tiles, 1 ≤ e.2.h) : g.nextLine = none ↔ ∀ y, ¬g.Remaining y := by
  rw [GenFrame.nextLine_eq, List.min?_eq_none_iff, List.eq_nil_iff_forall_not_mem]
  constructor
  · intro empty y remains
    obtain ⟨z, first, -⟩ := remains.firstLine
    exact empty z first
  · exact fun ended y first => ended y (GenFrame.firstLines_remaining tall first)

theorem GenFrame.nextLine_some (tall : ∀ e ∈ g.tiles, 1 ≤ e.2.h) :
    g.nextLine = some y ↔ g.Remaining y ∧ ∀ z, z < y → ¬g.Remaining z := by
  rw [GenFrame.nextLine_eq, List.min?_eq_some_iff]
  constructor
  · rintro ⟨first, least⟩
    refine ⟨GenFrame.firstLines_remaining tall first, fun z below remains => ?_⟩
    obtain ⟨w, first', before⟩ := remains.firstLine
    exact absurd (least w first') (by omega)
  · rintro ⟨remains, least⟩
    have notBelow : ∀ z ∈ g.firstLines, y ≤ z := fun z first =>
      not_lt.mp fun below => least z below (GenFrame.firstLines_remaining tall first)
    obtain ⟨z, first, before⟩ := remains.firstLine
    exact ⟨le_antisymm before (notBelow z first) ▸ first, notBelow⟩

theorem GenFrame.orEnded_eq (g : GenFrame) : g.orEnded = if g.nextLine = none then none else some g := by
  rw [GenFrame.orEnded]
  cases g.nextLine <;> rfl

theorem GenFrame.line_eq (g : GenFrame) (y : Nat) :
    g.line y = ⟨if g.policy then .policy else .pattern, y,
      (g.tiles.filter fun e => decide (e.2.y ≤ y ∧ y < e.2.y + e.2.h)).map (generatedRow g y)⟩ := by
  simp only [GenFrame.line, Tile.coversLine, Bool.decide_and]

theorem Port.place_room {p : Port} (generates : p.gen = some g) (next : g.nextLine = some y) (room : p.queue.length < 8) :
    p.place = { p with queue := p.queue ++ [g.line y], gen := GenFrame.orEnded { g with nextY := y + 1 } } := by
  simp only [Port.place, generates, next]
  exact if_pos room

theorem Port.place_full {p : Port} (generates : p.gen = some g) (next : g.nextLine = some y) (full : 8 ≤ p.queue.length) :
    p.place = p := by
  simp only [Port.place, generates, next]
  exact if_neg (not_lt.mpr full)

end

/-! ## Patterns (R102, R103) -/

/-- The bars cover a row without overlapping. -/
theorem barOf_eq {w i : Nat} {k : Fin 8} (first : k.1 * w / 8 ≤ i) (last : i < (k.1 + 1) * w / 8) : barOf w i = k.1 := by
  have found : (List.range 8).find? (fun k => decide (k * w / 8 ≤ i) && decide (i < (k + 1) * w / 8)) = some k.1 := by
    rw [List.find?_range_eq_some]
    refine ⟨by simp [first, last], by simp [k.isLt], fun j before => ?_⟩
    have ends : (j + 1) * w / 8 ≤ i := (Nat.div_le_div_right (Nat.mul_le_mul_right w before)).trans first
    simp [ends]
  exact congrArg (Option.getD · 7) found

theorem patternPixel_grid {f : Rgb} {t : Tile} {j i : Nat} (column : i < t.w) (row : j < t.h) :
    patternPixel .grid f t j i =
      if i = 0 ∨ i = t.w - 1 ∨ j = 0 ∨ j = t.h - 1 ∨ (j = t.h / 2 ∧ 2 ≤ i ∧ i ≤ 2 + t.pos.1) then Rgb.white
      else Rgb.black := by
  have right : i + 1 = t.w ↔ i = t.w - 1 := by omega
  have bottom : j + 1 = t.h ↔ j = t.h - 1 := by omega
  simp only [patternPixel, right, bottom]

/-! ## Cadence expiries (R97 to R99) -/

section
variable {s : State} {i : Fin 8}

theorem State.cadenceAt_quiet (quiet : s.generatedFrame i = none) : s.cadenceAt i = s := by
  rw [State.cadenceAt, quiet]

theorem State.cadenceAt_starts {g : GenFrame} (starts : s.generatedFrame i = some g) :
    s.cadenceAt i = s.setPort i { s.ports[i] with
      gen := if g.nextLine = none then none else some g, genCount := s.ports[i].genCount + 1 } := by
  rw [State.cadenceAt, starts, ← GenFrame.orEnded_eq]
  rfl

/-- The generated frame of a port as it starts: its chain list and the fill colour are copied. -/
def State.newFrame (s : State) (i : Fin 8) (policy : Bool) (kind : Pattern) : GenFrame :=
  { policy := policy, kind := kind, tiles := chainList s.ms.shown.1 i, fill := s.ms.shown.2, nextY := 0 }

/-- A port that may start a generated frame (R99). -/
def State.Able (s : State) (i : Fin 8) : Prop :=
  s.ports[i].config.enabled = true ∧ s.phase = .running ∧ s.ports[i].gen = none

theorem State.able_iff :
    (!s.ports[i].config.enabled || s.phase == .starting || s.ports[i].gen.isSome) = false ↔ s.Able i := by
  cases running : s.phase <;> simp [State.Able, running]

theorem State.generatedFrame_unable (unable : ¬s.Able i) : s.generatedFrame i = none :=
  if_pos (eq_true_of_ne_false (mt State.able_iff.mp unable))

theorem State.generatedFrame_able (able : s.Able i) :
    s.generatedFrame i =
      match s.ports[i].config.forced with
      | some k => some (s.newFrame i false k)
      | none =>
        if lossInForce s s.ports[i] then
          match s.ports[i].config.loss with
          | .dark => none
          | .fill => some (s.newFrame i true .solid)
          | .pattern => some (s.newFrame i true s.ports[i].config.pattern)
        else none :=
  if_neg (Bool.eq_false_iff.mp (State.able_iff.mpr able))

theorem State.generatedFrame_forced (able : s.Able i) {k : Pattern} (forced : s.ports[i].config.forced = some k) :
    s.generatedFrame i = some (s.newFrame i false k) := by
  rw [State.generatedFrame_able able, forced]

theorem State.generatedFrame_unforced (able : s.Able i) (unforced : s.ports[i].config.forced = none)
    (noLoss : lossInForce s s.ports[i] = false) : s.generatedFrame i = none := by
  rw [State.generatedFrame_able able, unforced, noLoss]
  rfl

theorem State.generatedFrame_loss (able : s.Able i) (unforced : s.ports[i].config.forced = none)
    (loss : lossInForce s s.ports[i] = true) :
    s.generatedFrame i =
      match s.ports[i].config.loss with
      | .dark => none
      | .fill => some (s.newFrame i true .solid)
      | .pattern => some (s.newFrame i true s.ports[i].config.pattern) := by
  rw [State.generatedFrame_able able, unforced, loss]
  rfl

theorem lossInForce_iff (able : s.Able i) : lossInForce s s.ports[i] = true ↔
    s.ports[i].config.forced = none ∧ s.ports[i].releasePending = false ∧
      (s.ft.lock = .lost ∨ s.ft.lock = .noSignal) ∧ s.ft.frame = none := by
  obtain ⟨enabled, running, -⟩ := able
  rw [lossInForce, enabled, running]
  simp [and_assoc]

end

theorem State.cadenceExpiry_eq {s : State} (released : s.held = false) {t0 : Nat} (runs : s.cadenceTimer = some t0)
    (dt : Nat) :
    exec (.cadenceExpiry dt) s =
      .next (portIndices.foldl State.cadenceAt
        { s.elapse dt with
          now := max (s.now + dt) t0, cadenceTimer := some (max (s.now + dt) t0 + s.cadencePeriod) }) := by
  have runs : (s.elapse dt).cadenceTimer = some t0 := runs
  show execCadenceExpiry dt s = _
  rw [execCadenceExpiry, State.take_released released]
  simp only [runs]
  rfl

/-- Settles O57: which frames a cadence expiry starts, the lines they place, and the pixels of each pattern. -/
theorem portsGenerateFrames : Obligations.PortsGenerateFrames := by
  refine ⟨⟨rfl, fun dt t0 s released runs => ?expiry⟩, fun i s => ?starts, fun dt i g y s released generates next => ?places,
    fun g tall => ?next, fun g y => g.line_eq y, fun f t j i column => ?pixels⟩
  case expiry =>
    intro now period
    rw [State.cadenceExpiry_eq released runs]
    have inForce : s.cadencePeriod = period := by
      show State.cadencePeriod s = match s.ft.reference with | some r => r | none => 1000000 / cadenceRate s.cadence
      unfold State.cadencePeriod
      cases s.ft.reference <;> rfl
    rw [← inForce]
    rfl
  case starts =>
    intro p context shown starts lost able
    have active : s.ms.activeContext = context := by
      show s.ms.activeContext = match s.ms.selection with
        | .none => none | .context c => some c | .sequence es j _ => es[j]?.map SeqEntry.ctx
      unfold MapStore.activeContext
      cases s.ms.selection <;> rfl
    have shows : s.ms.shown = shown := by
      unfold MapStore.shown
      rw [active]
      show _ = match context with | some c => (used s.ms.contexts[c].table, s.ms.contexts[c].fill) | none => ([], ⟨0, 0, 0⟩)
      cases context <;> rfl
    have start {policy : Bool} {kind : Pattern} (calls : s.generatedFrame i = some (s.newFrame i policy kind)) :
        starts policy kind := by
      refine ⟨chainList shown.1 i, chainList_perm .., chainList_sorted .., ?_⟩
      intro g
      have same : s.newFrame i policy kind = g := by rw [State.newFrame, shows]
      exact State.cadenceAt_starts (same ▸ calls)
    refine ⟨fun unable => ?_, fun k able forced => ?_, fun able loss dark => ?_, fun able loss fill => ?_,
      fun able loss pattern => ?_, fun able unforced noLoss => ?_⟩
    · exact State.cadenceAt_quiet (State.generatedFrame_unable unable)
    · exact start (State.generatedFrame_forced able forced)
    · have calls := State.generatedFrame_loss able loss.1 ((lossInForce_iff able).mpr loss)
      rw [show s.ports[i].config.loss = .dark from dark] at calls
      exact State.cadenceAt_quiet calls
    · have calls := State.generatedFrame_loss able loss.1 ((lossInForce_iff able).mpr loss)
      rw [show s.ports[i].config.loss = .fill from fill] at calls
      exact start calls
    · have calls := State.generatedFrame_loss able loss.1 ((lossInForce_iff able).mpr loss)
      rw [show s.ports[i].config.loss = .pattern from pattern] at calls
      exact start calls
    · exact State.cadenceAt_quiet (State.generatedFrame_unforced able unforced
        (Bool.eq_false_iff.mpr (mt (lossInForce_iff able).mp noLoss)))
  case places =>
    intro p g'
    have placed : exec (.generatedLinePlaced dt i) s = .next ((s.elapse dt).setPort i p.place) := by
      show execGeneratedLinePlaced dt i s = _
      rw [execGeneratedLinePlaced, State.take_released released]
      rfl
    refine ⟨fun room => ?_, fun full => ?_⟩
    · rw [placed, Port.place_room generates next room, GenFrame.orEnded_eq]
    · rw [placed, Port.place_full generates next full]
  case next =>
    intro covered
    refine ⟨(GenFrame.nextLine_none tall).trans ?_, fun y => (GenFrame.nextLine_some tall).trans ?_⟩
    · exact forall_congr' fun y => not_and
    · rw [GenFrame.Remaining, and_assoc]
      exact and_congr_right' (and_congr_right' (forall_congr' fun z => by
        rw [GenFrame.Remaining, not_and]
        exact forall_comm))
  case pixels =>
    intro white marked drawn level
    refine ⟨rfl, rfl, fun row => ⟨fun on => ?_, fun off => ?_⟩, fun k first last => ?_⟩
    · exact (patternPixel_grid column row).trans (if_pos on)
    · exact (patternPixel_grid column row).trans (if_neg off)
    · have colours : ∀ k : Fin 8, barColours.getD k.1 Rgb.black =
          ([⟨4095, 4095, 4095⟩, ⟨4095, 4095, 0⟩, ⟨0, 4095, 4095⟩, ⟨0, 4095, 0⟩, ⟨4095, 0, 4095⟩, ⟨4095, 0, 0⟩,
            ⟨0, 0, 4095⟩, ⟨0, 0, 0⟩] : List Rgb)[k] := by decide
      rw [patternPixel, barOf_eq first last]
      exact colours k

end Sys2Proof.Machine
end

section
/-!
PROOFS. The trunk link's return lane: the Downstream port (R140 to R143, R148), and the Upstream port with the bytes it
sends (R144 to R147, R177, R183 to R187).
-/

namespace Sys2Proof.Machine

/-! ## The Downstream port -/

theorem State.heard_eq (buffer : List (List Byte)) (s : State) :
    s.heard buffer =
      let t : State := { s with
        dn := { up := true, buffer := buffer, receiving := false,
                linkTimer := if 4 ≤ buffer.length then none else some (s.now + 2000) } }
      if s.dn.up = true then t else t.raise (.downstreamLink true) := by
  have high (t : Option Nat) : (⟨true, t, buffer, false⟩ : Downlink).holdOut = true ↔ 4 ≤ buffer.length := by
    simp [Downlink.holdOut_iff]
  have timer : s.dn.heard s.now buffer =
      { up := true, buffer := buffer, receiving := false,
        linkTimer := if 4 ≤ buffer.length then none else some (s.now + 2000) } := by
    rw [Downlink.heard]
    simp only [high]
    rfl
  rw [State.heard, timer]
  cases s.dn.up <;> rfl

/-- The beginning of a reception stops the link timer where it raises the HOLD output of a link that is UP (R140). -/
theorem State.changeDown_begun (s : State) :
    (s.changeDown fun d => { d with receiving := true }) =
      { s with dn := { s.dn with
          receiving := true,
          linkTimer := if s.dn.up = true ∧ s.dn.receiving = false ∧ s.dn.buffer.length = 3 then none
                       else s.dn.linkTimer } } := by
  refine congrArg (fun d => { s with dn := d }) ((Downlink.followHold_rises (fun high => ?_) s.now).trans ?_)
  · rw [Downlink.holdOut_iff] at *
    exact high.imp_right fun three => ⟨three.1, rfl⟩
  · have rises : s.dn.holdOut = false ∧ ({ s.dn with receiving := true } : Downlink).holdOut = true ↔
        s.dn.receiving = false ∧ s.dn.buffer.length = 3 := by
      rw [← Bool.not_eq_true, Downlink.holdOut_iff, Downlink.holdOut_iff]
      cases s.dn.receiving
      · simp
        omega
      · simp
    simp only [rises]

/-- Settles O58, from what an intact packet, and the beginning and the end of a reception, do at the port. -/
theorem downstreamPortTakesReturnPackets : Obligations.DownstreamPortTakesReturnPackets := by
  intro dt bytes s released received hold n heard
  have hears (fresh : received) : s.Receives dt := ⟨released, fresh⟩
  have heard_eq (buffer : List (List Byte)) : (s.elapse dt).heard buffer = heard buffer := State.heard_eq ..
  refine ⟨Downlink.holdOut_iff, fun fresh => ?begins, fun idle => ?lost, fun fresh receiving room => ?joins,
    fun fresh receiving full => ?overflows, fun fresh receiving => ?idle, fun t0 runs => ?expires⟩
  case begins =>
    show execReturnReceptionBegins dt s = _
    rw [execReturnReceptionBegins, State.receive_heard (hears fresh), State.changeDown_begun]
    rfl
  case lost =>
    constructor
    · show execReturnPacket dt bytes s = _
      exact State.completeReception_lost idle dt _
    · show execReturnIdle dt s = _
      exact State.completeReception_lost idle dt _
  case joins =>
    show execReturnPacket dt bytes s = _
    rw [execReturnPacket, State.completeReception_taken (hears fresh) receiving, if_pos (by exact room), heard_eq]
    rfl
  case overflows =>
    have kind : byteAt bytes 0 = bytes.headD 0 := by cases bytes <;> rfl
    show execReturnPacket dt bytes s = _
    rw [execReturnPacket, State.completeReception_taken (hears fresh) receiving, if_neg (by exact not_lt.mpr full),
      heard_eq, kind]
    rfl
  case idle =>
    show execReturnIdle dt s = _
    rw [execReturnIdle, State.completeReception_taken (hears fresh) receiving, heard_eq]
    rfl
  case expires =>
    have runs : (s.elapse dt).dn.linkTimer = some t0 := runs
    show execLinkTimerExpiry dt s = _
    rw [execLinkTimerExpiry, State.take_released released]
    simp only [runs]
    rfl

/-! ## The end of a transmission -/

theorem ResponseQueue.release_eq (i : Fin 8) (q : ResponseQueue) :
    q.release i = ⟨upd q.slots i .free, q.order.filter fun j => decide (j ≠ i)⟩ := by
  simp only [ResponseQueue.release, bne, decide_not]
  rfl

section
variable {n : Notices} {k : NoticeKind} {p : Pending}

theorem Notices.endSend_empty (empty : n.slots[k.idx].body = none) : n.endSend k = n := by
  rw [Notices.endSend, empty]

theorem Notices.endSend_unsent (present : n.slots[k.idx].body = some p) (unsent : p.sending = false) :
    n.endSend k = n := by
  simp only [Notices.endSend, present, unsent]
  rfl

theorem Notices.endSend_sent (present : n.slots[k.idx].body = some p) (sent : p.sending = true) (plain : p.carry = none) :
    n.endSend k = ⟨upd n.slots k.idx ⟨n.slots[k.idx].cls, none⟩, n.list.filter fun j => decide (j ≠ k)⟩ := by
  simp only [Notices.endSend, present, sent, plain, NoticeKind.filter_bne]
  rfl

theorem Notices.endSend_carried (present : n.slots[k.idx].body = some p) (sent : p.sending = true) {y : Carry}
    (carry : p.carry = some y) :
    n.endSend k =
      ⟨upd n.slots k.idx ⟨n.slots[k.idx].cls, some ⟨y.count, y.first, y.latest, false, none⟩⟩, n.list⟩ := by
  simp only [Notices.endSend, present, sent, carry]
  rfl

end

/-- A packet that leaves the pass-through buffer starts the link timer where that lowers the HOLD output of a link that
is UP (R140, R147). -/
theorem State.changeDown_sent (s : State) :
    (s.changeDown fun d => { d with buffer := d.buffer.drop 1 }) =
      { s with dn := { s.dn with
          buffer := s.dn.buffer.drop 1,
          linkTimer := if s.dn.up = true ∧ (s.dn.buffer.length = 4 ∧ s.dn.receiving = false ∨
                            s.dn.buffer.length = 3 ∧ s.dn.receiving = true)
                       then some (s.now + 2000) else s.dn.linkTimer } } := by
  refine congrArg (fun d => { s with dn := d }) ((Downlink.followHold_falls (fun high => ?_) s.now).trans ?_)
  · rw [Downlink.holdOut_iff, List.length_drop] at *
    omega
  · have falls : s.dn.holdOut = true ∧ ({ s.dn with buffer := s.dn.buffer.drop 1 } : Downlink).holdOut = false ↔
        s.dn.buffer.length = 4 ∧ s.dn.receiving = false ∨ s.dn.buffer.length = 3 ∧ s.dn.receiving = true := by
      rw [← Bool.not_eq_true (Downlink.holdOut _), Downlink.holdOut_iff, Downlink.holdOut_iff, List.length_drop]
      cases s.dn.receiving <;> simp <;> omega
    simp only [falls]

/-- The end of a transmission while no FULL reset is pending: its source is told. -/
theorem exec_transmissionCompletion {s : State} {x : Sending} (released : s.held = false) (sends : s.up.sending = some x)
    (noReset : s.fullReset = none) (dt : Nat) (cut : Mishap) :
    exec (.transmissionCompletion dt cut) s =
      .next (State.sent x.source { s.elapse dt with up := { s.up with sending := none } }) := by
  have sends : (s.elapse dt).up.sending = some x := sends
  have noReset : (s.elapse dt).fullReset = none := noReset
  show execTransmissionCompletion dt cut s = _
  rw [execTransmissionCompletion, State.take_released released]
  simp only [sends, noReset]
  rfl

/-- Settles O60, from the end of a transmission at each source. -/
theorem transmissionEndsAtItsSource : Obligations.TransmissionEndsAtItsSource := by
  intro dt cut x s released sends noReset ended cmd
  have stands {src : SendSource} (source : x.source = src) : exec cmd s = .next (ended.sent src) :=
    source ▸ exec_transmissionCompletion released sends noReset dt cut
  have notices {k : NoticeKind} {n : Notices} (source : x.source = .notice k) (after : s.ns.endSend k = n) :
      exec cmd s = .next { ended with ns := n } :=
    (stands source).trans (congrArg (fun n => Host.Outcome.next { ended with ns := n }) after)
  refine ⟨fun i source => ?response, fun k p source present => ?notice, fun k source empty => ?gone, fun source => ?pass,
    fun source => ?nothing⟩
  case response =>
    exact (stands source).trans
      (congrArg (fun q => Host.Outcome.next { ended with rq := q }) (ResponseQueue.release_eq i s.rq))
  case notice =>
    intro cls
    exact ⟨fun sent plain => notices source (Notices.endSend_sent present sent plain),
      fun y sent carry => notices source (Notices.endSend_carried present sent carry),
      fun unsent => notices source (Notices.endSend_unsent present unsent)⟩
  case gone => exact notices source (Notices.endSend_empty empty)
  case pass =>
    intro buffer falls
    exact (stands source).trans (congrArg Host.Outcome.next (State.changeDown_sent ended))
  case nothing => rcases source with source | source <;> exact stands source

/-! ## What the sources offer (R146, R183, R184) -/

theorem ResponseQueue.head_filled {q : ResponseQueue} {i : Fin 8} {rest : List (Fin 8)} {r : Response}
    (order : q.order = i :: rest) (filled : q.slots[i] = .filled r) : q.head = some (i, r) := by
  rw [ResponseQueue.head, order]
  dsimp only
  rw [filled]

theorem ResponseQueue.head_empty {q : ResponseQueue} (order : q.order = []) : q.head = none := by
  rw [ResponseQueue.head, order]

theorem State.localOffer_response {s : State} {i : Fin 8} {r : Response} (head : s.rq.head = some (i, r)) :
    s.localOffer = some (.response i) := by
  rw [State.localOffer, head]

theorem State.localOffer_notice {s : State} (head : s.rq.head = none) :
    s.localOffer = (s.ns.chosen s.address).map .notice := by
  rw [State.localOffer, head]

section
variable {n : Notices} {k : NoticeKind} {before after : List NoticeKind}

/-- A class below the lowest class present has no notice. -/
theorem Notices.firstOf_below {c : Fin 4} (higher : ∀ x ∈ n.list, c < n.slots[x.idx].cls) : n.firstOf c = none := by
  rw [Notices.firstOf, List.find?_eq_none]
  intro x pending
  simpa using (ne_of_lt (higher x pending)).symm

/-- The oldest notice of a class. -/
theorem Notices.firstOf_oldest (list : n.list = before ++ k :: after)
    (younger : ∀ x ∈ before, n.slots[x.idx].cls ≠ n.slots[k.idx].cls) : n.firstOf n.slots[k.idx].cls = some k := by
  have skipped : before.find? (fun x => n.slots[x.idx].cls == n.slots[k.idx].cls) = none := by
    rw [List.find?_eq_none]
    exact fun x older => by simpa using younger x older
  rw [Notices.firstOf, list, List.find?_append, skipped, Option.none_or, List.find?_cons, beq_self_eq_true]

/-- The chosen notice is the oldest of the lowest class present (R183). -/
theorem Notices.chosen_oldest {address : Byte} (given : address ≠ 0) (list : n.list = before ++ k :: after)
    (on : n.slots[k.idx].cls ≠ 3) (older : ∀ x ∈ before, n.slots[k.idx].cls < n.slots[x.idx].cls)
    (newer : ∀ x ∈ after, n.slots[k.idx].cls ≤ n.slots[x.idx].cls) : n.chosen address = some k := by
  have oldest := Notices.firstOf_oldest list fun x mem => (ne_of_lt (older x mem)).symm
  have lowest {c : Fin 4} (below : c < n.slots[k.idx].cls) : n.firstOf c = none :=
    Notices.firstOf_below fun x pending => by
      rw [list, List.mem_append, List.mem_cons] at pending
      rcases pending with first | rfl | last
      · exact below.trans (older x first)
      · exact below
      · exact below.trans_le (newer x last)
  rw [Notices.chosen, if_neg given]
  revert on oldest lowest
  generalize n.slots[k.idx].cls = c
  intro on oldest lowest
  match c with
  | 0 => rw [oldest, Option.some_or]
  | 1 => rw [lowest (by decide : (0 : Fin 4) < 1), oldest, Option.none_or, Option.some_or]
  | 2 =>
    rw [lowest (by decide : (0 : Fin 4) < 2), lowest (by decide : (1 : Fin 4) < 2), oldest, Option.none_or,
      Option.none_or]
  | 3 => exact absurd rfl on

end

/-! ## The Return Arbiter's choice (R146) -/

section
variable {s : State}

theorem State.passOffer_none : s.passOffer = none ↔ s.dn.buffer = [] := by
  rw [State.passOffer, Option.map_eq_none_iff, List.head?_eq_none_iff]

theorem State.passOffer_some (queued : s.dn.buffer ≠ []) : s.passOffer = some .pass := by
  obtain ⟨b, rest, buffer⟩ := List.exists_cons_of_ne_nil queued
  rw [State.passOffer, buffer]
  rfl

theorem State.choice_none : s.choice = none ↔ s.localOffer = none ∧ s.dn.buffer = [] := by
  rw [State.choice, ← State.passOffer_none]
  cases s.localOffer <;> cases s.passOffer <;> cases s.up.turn <;> simp [arbitrate]

theorem State.choice_local {l : SendSource} (offers : s.localOffer = some l)
    (first : s.dn.buffer = [] ∨ s.up.turn = .toLocal) : s.choice = some (l, .toPass) := by
  rw [State.choice, offers]
  rw [← State.passOffer_none] at first
  cases pass : s.passOffer with
  | none => rfl
  | some p =>
    rw [first.resolve_left (by simp [pass])]
    rfl

theorem State.choice_pass (queued : s.dn.buffer ≠ []) (first : s.localOffer = none ∨ s.up.turn = .toPass) :
    s.choice = some (.pass, .toLocal) := by
  rw [State.choice, State.passOffer_some queued]
  cases offer : s.localOffer with
  | none => rfl
  | some l =>
    rw [first.resolve_left (by simp [offer])]
    rfl

theorem State.mayBegin_iff : s.mayBegin = true ↔ s.up.sending = none ∧ s.up.holdIn = false := by
  simp [State.mayBegin]

theorem State.sendIdle_eq (s : State) :
    s.sendIdle =
      if s.up.sending = none ∧ s.up.holdIn = false ∧ s.up.idleDue = true ∧ s.localOffer = none ∧ s.dn.buffer = [] then
        s.beginSend .idle s.up.turn
      else s := by
  refine if_congr ?_ rfl rfl
  rw [Bool.and_eq_true, Bool.and_eq_true, State.mayBegin_iff, Option.isNone_iff_eq_none, State.choice_none, and_assoc,
    and_assoc]

theorem exec_transmissionBegins_chosen {dt : Nat} {src : SendSource} {turn : Turn} (released : s.held = false)
    (sending : s.up.sending = none) (low : s.up.holdIn = false) (chosen : s.choice = some (src, turn)) :
    exec (.transmissionBegins dt) s = .next ((s.elapse dt).beginSend src turn) := by
  have chosen : (s.elapse dt).choice = some (src, turn) := chosen
  show execTransmissionBegins dt s = _
  rw [execTransmissionBegins, State.take_released released, if_pos (State.mayBegin_iff.mpr (by exact ⟨sending, low⟩)), chosen]

theorem exec_transmissionBegins_none {dt : Nat} (released : s.held = false) (sending : s.up.sending = none)
    (low : s.up.holdIn = false) (nothing : s.choice = none) :
    exec (.transmissionBegins dt) s = .next (s.elapse dt).sendIdle := by
  have nothing : (s.elapse dt).choice = none := nothing
  show execTransmissionBegins dt s = _
  rw [execTransmissionBegins, State.take_released released, if_pos (State.mayBegin_iff.mpr (by exact ⟨sending, low⟩)), nothing]

theorem exec_transmissionBegins_busy {dt : Nat} (released : s.held = false)
    (busy : s.up.sending ≠ none ∨ s.up.holdIn = true) : exec (.transmissionBegins dt) s = .next (s.elapse dt) := by
  have waits : ¬(s.elapse dt).mayBegin = true := fun may => by
    obtain ⟨sending, low⟩ := State.mayBegin_iff.mp may
    rcases busy with busy | high
    · exact busy sending
    · exact absurd (high.symm.trans low) (by decide)
  show execTransmissionBegins dt s = _
  rw [execTransmissionBegins, State.take_released released, if_neg waits]

end

/-! ## The bytes of a notice's details (R206) -/

theorem ite_bit (b : Bool) (n : Nat) : (if b then n else 0) = n * b.toNat := by cases b <;> simp

theorem bitsNat_vector4 (v : Vector Bool 4) :
    bitsNat v.toList =
      (if v[0] then 1 else 0) + (if v[1] then 2 else 0) + (if v[2] then 4 else 0) + (if v[3] then 8 else 0) := by
  obtain ⟨⟨l⟩, size⟩ := v
  match l, size with
  | [a, b, c, d], _ =>
    show bitsNat [a, b, c, d] =
      (if a then 1 else 0) + (if b then 2 else 0) + (if c then 4 else 0) + (if d then 8 else 0)
    simp only [bitsNat, ite_bit]
    ring

theorem bitsNat_vector8 (v : Vector Bool 8) :
    bitsNat v.toList =
      (if v[0] then 1 else 0) + (if v[1] then 2 else 0) + (if v[2] then 4 else 0) + (if v[3] then 8 else 0) +
        (if v[4] then 16 else 0) + (if v[5] then 32 else 0) + (if v[6] then 64 else 0) + (if v[7] then 128 else 0) := by
  obtain ⟨⟨l⟩, size⟩ := v
  match l, size with
  | [a, b, c, d, e, f, g, h], _ =>
    show bitsNat [a, b, c, d, e, f, g, h] =
      (if a then 1 else 0) + (if b then 2 else 0) + (if c then 4 else 0) + (if d then 8 else 0) +
        (if e then 16 else 0) + (if f then 32 else 0) + (if g then 64 else 0) + (if h then 128 else 0)
    simp only [bitsNat, ite_bit]
    ring

theorem storeFaultByte_eq (r : StoreFaultReason) (b : BankId) (k : Option RecKey) :
    64 * storeReasonCode r + 32 * (bankCode b).toNat + keyIndex k =
      (match r with | .writeFault => 0 | .checkFail => 64 | .badContent => 128 | .scanEnded => 192) +
        32 * (match b with | .A => 0 | .B => 1) +
        (match k with | none => 0 | some .settings => 1 | some (.context c) => c.1 + 2 | some (.table t) => t.1 + 6) := by
  have reason : 64 * storeReasonCode r =
      match r with | .writeFault => 0 | .checkFail => 64 | .badContent => 128 | .scanEnded => 192 := by cases r <;> rfl
  have bank : (bankCode b).toNat = match b with | .A => 0 | .B => 1 := by cases b <;> rfl
  have key : keyIndex k =
      match k with | none => 0 | some .settings => 1 | some (.context c) => c.1 + 2 | some (.table t) => t.1 + 6 := by
    rcases k with _ | _ | _ | _ <;> rfl
  rw [reason, bank, key]

theorem startupByte_eq (b : BankId) (cs : Vector Bool 4) :
    (bankCode b).toNat + 16 * bitsNat cs.toList =
      (match b with | .A => 0 | .B => 1) + (if cs[0] then 16 else 0) + (if cs[1] then 32 else 0) +
        (if cs[2] then 64 else 0) + (if cs[3] then 128 else 0) := by
  have bank : (bankCode b).toNat = match b with | .A => 0 | .B => 1 := by cases b <;> rfl
  simp only [bank, bitsNat_vector4, ite_bit]
  ring

/-- Settles O59: what is offered, what the arbiter chooses, and the bytes each source sends. -/
theorem upstreamPortBeginsPackets : Obligations.UpstreamPortBeginsPackets := by
  refine ⟨fun dt s => ?begins, fun kind fields => rfl, ?codes, ?details⟩
  case begins =>
    intro t begun nothing orIdle
    have begins (now : Nat) (up : Uplink) (src : SendSource) (turn : Turn) :
        ({ s with now := now, up := up, out := [] } : State).beginSend src turn =
          begun { s with now := now, up := up, out := [] } src turn := by
      cases src <;> rfl
    have idles (now : Nat) (up : Uplink) (same : up.sending = s.up.sending) :
        ({ s with now := now, up := up, out := [] } : State).sendIdle =
          orIdle { s with now := now, up := up, out := [] } := by
      rw [State.sendIdle_eq, begins]
      show (if up.sending = none ∧ _ then _ else _) = _
      rw [same]
      rfl
    refine ⟨fun i rest r order filled => ?oldest, fun order unaddressed => ?unaddressed,
      fun before k after order addressed list => ?lowest, fun released sending low => ?chosen,
      fun released busy => exec_transmissionBegins_busy released busy, fun t0 released runs => ?interval, rfl, ?falls,
      fun i r filled => ?responseBytes, fun k p present => ?noticeBytes, fun b rest buffer => ?passBytes, rfl⟩
    case oldest => exact State.localOffer_response (ResponseQueue.head_filled order filled)
    case unaddressed =>
      rw [State.localOffer_notice (ResponseQueue.head_empty order), Notices.chosen, if_pos unaddressed]
      rfl
    case lowest =>
      intro cls on older newer
      rw [State.localOffer_notice (ResponseQueue.head_empty order), Notices.chosen_oldest addressed list on older newer]
      rfl
    case chosen =>
      refine ⟨fun l offers first => ?_, fun queued first => ?_, fun nothing => ?_⟩
      · exact (exec_transmissionBegins_chosen released sending low (State.choice_local offers first)).trans
          (congrArg Host.Outcome.next (begins ..))
      · exact (exec_transmissionBegins_chosen released sending low (State.choice_pass queued first)).trans
          (congrArg Host.Outcome.next (begins ..))
      · exact (exec_transmissionBegins_none released sending low (State.choice_none.mpr nothing)).trans
          (congrArg Host.Outcome.next (idles _ _ rfl))
    case interval =>
      have runs : (s.elapse dt).up.idleTimer = some t0 := runs
      show execIdleIntervalExpiry dt s = _
      rw [execIdleIntervalExpiry, State.take_released released]
      simp only [runs]
      exact congrArg Host.Outcome.next (idles _ _ rfl)
    case falls => exact congrArg Host.Outcome.next (idles _ _ rfl)
    case responseBytes =>
      simp only [State.packetOf, filled]
      rfl
    case noticeBytes =>
      simp only [State.packetOf, present]
      rfl
    case passBytes => rw [State.packetOf, buffer, List.headD_cons]
  case codes => exact ⟨by decide, by decide, by decide, by decide⟩
  case details =>
    intro lock reason prior bank key bit issuer d
    have locks (x : LockState) : lockCode x = lock x := by cases x <;> rfl
    have reasons (x : Reason) : reasonCode x = reason x := by cases x <;> rfl
    have priors (x : PriorStatus) : priorCode x = prior x := by cases x <;> rfl
    have keys (x : Option RecKey) : keyIndex x = key x := by rcases x with _ | _ | _ | _ <;> rfl
    cases d with
    | lockChanged old new last => rw [detailBytes, locks, locks]
    | frameDamaged f d => rw [detailBytes, damageBits_eq]
    | portOverrun p f y => rw [detailBytes, Nat.mul_comm p.1]
    | portStalled p n head => cases head <;> rfl
    | changeApplied f c t => cases c <;> cases t <;> rfl
    | switchSuperseded old new seq => cases old <;> cases new <;> cases seq <;> rfl
    | bufferAbandoned soft c p k => rw [detailBytes, priors]
    | storeFault r b a k => exact congrArg (fun n => byteOf n :: (bytes2 a ++ [0])) (storeFaultByte_eq r b k)
    | storeNearlyFull n k => rw [detailBytes, keys]
    | startupComplete b g cs ts => rw [detailBytes, startupByte_eq, bitsNat_vector8]; rfl
    | trunkIntegrity lane r kind => cases lane <;> cases r <;> rfl
    | downstreamLink up => cases up <;> rfl
    | contextLoadFailed c why =>
      cases why with
      | validation r n => rw [detailBytes, reasons]
      | checkFail | startSelection => rfl
    | badGeometry | geometryMismatch | stagingAbandoned | sessionExpired | addressAssigned => rfl

end Sys2Proof.Machine
end

section
/-!
PROOFS. Enumeration (R194 to R196) and RESET (R199 to R202).
-/

namespace Sys2Proof.Machine

/-! ## ENUMERATE -/

theorem enumerateOperands_bytes {n : Byte} (given : n ≠ 0) (force : Bool) :
    enumerateOperands [n, yesNo force] = some (n, force) := by
  rw [enumerateOperands, if_neg given, boolOf_yesNo]
  rfl

section
variable {dt : Nat} {c : Ctl} {s : State} {n : Byte} {force : Bool}

theorem exec_enumeration (hears : s.Receives dt) (unaddressed : c.dest = 0) :
    exec (.enumerate dt c) s = .next ((s.elapse dt).arrive.enumeration c) := by
  show execEnumerate dt c s = _
  rw [execEnumerate, State.receive_heard hears, if_pos unaddressed]

theorem State.enumeration_malformed (malformed : enumerateOperands c.ops = none) :
    s.enumeration c = s.forward (enumeratePacket c) := by
  rw [State.enumeration, malformed]

/-- An enumeration that is not taken is forwarded as it is (R194). -/
theorem State.enumeration_passed (spelled : enumerateOperands c.ops = some (n, force))
    (passes : s.address ≠ 0 ∧ force = false ∨ s.fullReset ≠ none ∨ s.rq.freeSlot = none) :
    s.enumeration c = s.forward (enumeratePacket c) := by
  rw [State.enumeration, spelled]
  dsimp only
  split_ifs with has resets
  · rfl
  · rfl
  · rw [(passes.resolve_left has).resolve_left (by simpa using resets)]

theorem State.enumeration_taken (spelled : enumerateOperands c.ops = some (n, force))
    (takes : s.address = 0 ∨ force = true) (noReset : s.fullReset = none) {rq : Fin 8} (slot : s.rq.freeSlot = some rq) :
    s.enumeration c =
      ({ s with rq := s.rq.reserve rq c.key c.seq (reqCode .enumerate) } : State).enumerated n c rq := by
  have may : ¬(s.address ≠ 0 ∧ force = false) := fun ⟨has, gentle⟩ => takes.elim has (by simp [gentle])
  rw [State.enumeration, spelled]
  dsimp only
  rw [if_neg may, noReset, slot]
  rfl

theorem State.enumerated_low {rq : Fin 8} (low : n.toNat ≤ 250) :
    s.enumerated n c rq =
      ((({ s with address := n } : State).answered (reqCode .enumerate) c rq .ok [n]).raise
        (.addressAssigned n s.address)).forward (enumeratePacket (nextEnumerate n c)) := if_pos low

theorem State.enumerated_high {rq : Fin 8} (high : 250 < n.toNat) :
    s.enumerated n c rq =
      (s.answered (reqCode .enumerate) c rq .noAddress [s.address]).forward (enumeratePacket c) :=
  if_neg (not_le.mpr high)

end

/-- Settles O54, from the enumeration that is passed on and the one that is taken. -/
theorem enumerationGivesTheAddress : Obligations.EnumerationGivesTheAddress := by
  intro dt c s hears code passed
  refine ⟨fun unaddressed malformed => ?malformed, fun n force unaddressed given ops => ?enumeration,
    fun rq sessionless => ?sessionless, fun rq i d turn => ?session⟩
  case malformed =>
    rw [exec_enumeration hears unaddressed, State.enumeration_malformed malformed]
    rfl
  case enumeration =>
    have spelled : enumerateOperands c.ops = some (n, force) := ops ▸ enumerateOperands_bytes given force
    refine ⟨fun passes => ?passed, fun rq takes noReset slot => ?taken⟩
    case passed =>
      have passes : (s.elapse dt).arrive.address ≠ 0 ∧ force = false ∨ (s.elapse dt).arrive.fullReset ≠ none ∨
          (s.elapse dt).arrive.rq.freeSlot = none := by
        simpa using passes.imp_right (Or.imp_right ResponseQueue.freeSlot_none)
      rw [exec_enumeration hears unaddressed, State.enumeration_passed spelled passes]
      rfl
    case taken =>
      intro s0
      have taken : exec (.enumerate dt c) s = .next (s0.enumerated n c rq) := by
        rw [exec_enumeration hears unaddressed, State.enumeration_taken spelled (by simpa using takes) (by simpa using noReset)
          (by simpa using slot), State.arrive_rq]
        rfl
      have address : s0.address = s.address := State.received_address ..
      refine ⟨fun low => ?_, fun high => ?_⟩
      · rw [taken, State.enumerated_low low, address, nextEnumerate, ops]
        rfl
      · rw [taken, State.enumerated_high high, address]
        rfl
  case sessionless =>
    rw [show Instr.enumerate dt c = requestInstr dt c .enumerate from rfl,
      exec_requestInstr (by decide) sessionless.addressed.assigned]
    exact request_sessionless sessionless .enumerate rfl enumerateBody _ .badOperand [] rfl
  case session =>
    exact answeredInSession_same enumerateBody turn (exec_requestInstr (kind := .enumerate) (by decide) turn.addressed.assigned)
      (fun _ _ => rfl) fun _ => rfl

/-! ## RESET -/

theorem request_sessionless_uncached {dt : Nat} {c : Ctl} {s t : State} {rq : Fin 8} (h : Sessionless dt c s rq)
    (kind : ReqKind) (may : maySessionless kind = true) (body : Body) {st : Status} {res : List Byte}
    (hb : body ⟨.sessionless, some rq, c.ops⟩ (s.received dt (reqCode kind) c rq) = (t, .uncached st res)) :
    request kind body dt c s = .next (t.answered (reqCode kind) c rq st res) := by
  rw [request, State.receive_heard h.addressed.released, State.request, control_addressed h.addressed, State.tested,
    if_neg (by simp [State.received_phase, h.running]), if_pos h.keyless, may, if_pos rfl, hb]
  rfl

theorem resetBody_soft {k : Call} {s : State} (ops : k.ops = [0]) : resetBody k s = (s.softReset, .uncached .ok [0]) := by
  rw [resetBody, ops]
  rfl

theorem resetBody_full {k : Call} {s : State} (ops : k.ops = [1]) :
    resetBody k s = ({ s with fullReset := k.rq }, .uncached .ok [1]) := by
  rw [resetBody, ops]
  rfl

theorem MapStore.releaseEdit_eq (m : MapStore) :
    m.releaseEdit = match m.edit with | some e => m.withoutEditOf e.owner | none => m := by
  cases present : m.edit with
  | none => simp only [MapStore.releaseEdit, present]
  | some e => simp only [← MapStore.releaseEdit_of_owner, MapStore.ownsEdit, present, beq_self_eq_true, if_true]

theorem CorrectionUnit.releaseStaging_eq (u : CorrectionUnit) :
    u.releaseStaging =
      match u.staging with | .owned key _ _ => u.withoutStagingOf key | .free | .held .. => u := by
  cases staging : u.staging with
  | free | held => simp only [CorrectionUnit.releaseStaging, staging]
  | owned key t curves =>
    simp only [CorrectionUnit.releaseStaging, CorrectionUnit.withoutStagingOf, staging, if_true]

theorem CorrectionUnit.stagingAbandoned_eq (u : CorrectionUnit) (soft : Bool) :
    u.stagingAbandoned soft =
      match u.staging with | .owned key t _ => some (.stagingAbandoned soft t key) | .free | .held .. => none := by
  cases staging : u.staging with
  | free | held | owned => simp only [CorrectionUnit.stagingAbandoned, staging]

theorem Sending.detach_eq (x : Sending) :
    x.detach = match x.source with | .response _ => ⟨.detached, x.bytes⟩ | _ => x := by
  obtain ⟨source, bytes⟩ := x
  cases source <;> rfl

/-- A FULL reset takes effect when its response has been sent (R201). -/
theorem exec_transmissionCompletion_reset {s : State} {i : Fin 8} {bytes : List Byte} (released : s.held = false)
    (resets : s.fullReset = some i) (sends : s.up.sending = some ⟨.response i, bytes⟩) (dt : Nat) (cut : Mishap) :
    exec (.transmissionCompletion dt cut) s =
      .next (State.fullResetNow cut
        (State.sent (.response i) { s.elapse dt with up := { s.up with sending := none } })) := by
  have sends : (s.elapse dt).up.sending = some ⟨.response i, bytes⟩ := sends
  have resets : (s.elapse dt).fullReset = some i := resets
  have full : (some i).any (fun j => SendSource.response i == .response j) = true := by simp
  show execTransmissionCompletion dt cut s = _
  rw [execTransmissionCompletion, State.take_released released]
  simp only [sends, resets, full]
  rfl

/-- Settles O55: the body of a RESET from a session or sessionless, and the end of its response. -/
theorem resetSoftAndFull : Obligations.ResetSoftAndFull := by
  refine ⟨fun dt c rq s asks => ?asked, fun dt cut i bytes s released resets sends => ?sent⟩
  case asked =>
    intro s0 soft buffer staging
    have answers {t : State} {res : List Byte}
        (body : ∀ issuer, resetBody ⟨issuer, some rq, c.ops⟩ s0 = (t, .uncached .ok res)) :
        exec (.reset dt c) s = .next (t.answered (reqCode .reset) c rq .ok res) := by
      rcases asks with sessionless | ⟨i, d, turn⟩
      · exact request_sessionless_uncached sessionless .reset rfl resetBody (body _)
      · exact request_uncached turn .reset resetBody (body _)
    have ms : s0.ms = s.ms := State.received_ms ..
    have cu : s0.cu = s.cu := State.received_cu ..
    have up : s0.up = s.up := State.received_up ..
    have rs : s0.rs = s.rs := State.received_rs ..
    have softly : s0.softReset = (soft.raiseIf buffer).raiseIf staging := by
      have notice : s.cu.stagingAbandoned true = staging := CorrectionUnit.stagingAbandoned_eq ..
      rw [State.softReset, ms, cu, up, rs, MapStore.releaseEdit_eq, CorrectionUnit.releaseStaging_eq,
        funext Sending.detach_eq, notice]
      rfl
    exact ⟨fun ops => softly ▸ answers fun _ => resetBody_soft ops, fun ops => answers fun _ => resetBody_full ops⟩
  case sent =>
    intro now rs
    exact exec_transmissionCompletion_reset released resets sends dt cut

end Sys2Proof.Machine
end

section
/-!
PROOFS. The long store requests as they are tested and accepted (R113 to R116, R120 to R123, R126, R166), with the words
a save takes.
-/

namespace Sys2Proof.Machine

/-! ## What a save takes -/

theorem vector_toList {α : Type} {n : Nat} (v : Vector α n) : v.toList = (List.finRange n).map fun i => v[i] := by
  refine List.ext_getElem (by simp) fun i _ _ => ?_
  simp

theorem entryWords_eq (e : Nat × Tile) :
    entryWords e =
      [BitVec.ofNat 16 e.1, BitVec.ofNat 16 (256 * e.2.port.1 + e.2.pos.1), BitVec.ofNat 16 e.2.x, BitVec.ofNat 16 e.2.y,
       BitVec.ofNat 16 (256 * (e.2.w - 1) + (e.2.h - 1)),
       BitVec.ofNat 16 ((if e.2.mirrorH then 32768 else 0) + (if e.2.mirrorV then 16384 else 0) + 256 * e.2.table.1 +
         e.2.bright)] := by
  simp only [entryWords, wordOf, Nat.mul_comm 256]

theorem portWord_eq (c : PortConfig) :
    portWord c = BitVec.ofNat 16 (4096 * (if c.enabled then 1 else 0) + 256 * lossCode c.loss +
      16 * patternCode c.pattern + forcedCode c.forced) := by
  have enabled : (if c.enabled then 4096 else 0) = 4096 * (if c.enabled then 1 else 0) := by cases c.enabled <;> rfl
  rw [portWord, wordOf, enabled, Nat.mul_comm (lossCode _), Nat.mul_comm (patternCode _)]

/-- The start selection's kind code and its number of entries less one, as they stand in the word of the cadence, and its
entries (R207). -/
def Selection.startItems : Selection → Nat × List SeqEntry
  | .none => (0, [])
  | .context x => (256, [⟨x, 0⟩])
  | .sequence es _ _ => (512 + 1024 * (es.length - 1), es)

theorem Selection.startItems_entries (x : Selection) : startEntries x.saved = x.startItems.2 := by cases x <;> rfl

theorem Selection.startItems_code (x : Selection) :
    startCode x.saved * 256 + (match x.saved with | some (.sequence es) => es.length - 1 | _ => 0) * 1024 =
      x.startItems.1 := by
  cases x with
  | none | context => simp only [Selection.saved, startCode, Selection.startItems]
  | sequence es j n =>
    simp only [Selection.saved, startCode, Selection.startItems]
    omega

/-- The repeat count of a start selection's entry, 0 beyond its entries (log 25). -/
def countAt (es : List SeqEntry) (j : Nat) : Nat := match es[j]? with | some e => e.count | none => 0

/-- The context of a start selection's entry, 0 beyond its entries (log 25). -/
def contextAt (es : List SeqEntry) (j : Nat) : Nat := match es[j]? with | some e => e.ctx.1 | none => 0

theorem countAt_eq (es : List SeqEntry) (j : Nat) : (es[j]?.map SeqEntry.count).getD 0 = countAt es j := by
  unfold countAt
  cases es[j]? <;> rfl

theorem contextAt_eq (es : List SeqEntry) (j : Nat) : (es[j]?.map fun e => e.ctx.1).getD 0 = contextAt es j := by
  unfold contextAt
  cases es[j]? <;> rfl

/-- The classes of eight notice kinds in one word. -/
theorem classesWord_eq (classes : Vector (Fin 4) 16) :
    classesWord (classes.toList.take 8) =
        BitVec.ofNat 16 (([0, 1, 2, 3, 4, 5, 6, 7] : List (Fin 16)).foldl (fun v j => 4 * v + (classes[j]).1) 0) ∧
      classesWord (classes.toList.drop 8) =
        BitVec.ofNat 16 (([8, 9, 10, 11, 12, 13, 14, 15] : List (Fin 16)).foldl (fun v j => 4 * v + (classes[j]).1) 0) := by
  have halves : (List.finRange 16).take 8 = [0, 1, 2, 3, 4, 5, 6, 7] ∧
      (List.finRange 16).drop 8 = [8, 9, 10, 11, 12, 13, 14, 15] := by decide
  rw [vector_toList, ← List.map_take, ← List.map_drop, halves.1, halves.2]
  simp only [classesWord, wordOf, List.foldl_map, Nat.mul_comm _ 4]
  trivial

/-- The sixteen words of the settings (R207). -/
theorem settingsBody_eq (st : Settings) (x : Selection) (start : st.start = x.saved) :
    settingsBody st =
      (st.ports.toList.map fun p => BitVec.ofNat 16 (4096 * (if p.enabled then 1 else 0) + 256 * lossCode p.loss +
        16 * patternCode p.pattern + forcedCode p.forced)) ++
      [BitVec.ofNat 16 (st.cadence + x.startItems.1),
       BitVec.ofNat 16 (([0, 1, 2, 3, 4, 5, 6, 7] : List (Fin 16)).foldl (fun v j => 4 * v + (st.classes[j]).1) 0),
       BitVec.ofNat 16 (([8, 9, 10, 11, 12, 13, 14, 15] : List (Fin 16)).foldl (fun v j => 4 * v + (st.classes[j]).1) 0),
       BitVec.ofNat 16 (256 * countAt x.startItems.2 0 + countAt x.startItems.2 1),
       BitVec.ofNat 16 (256 * countAt x.startItems.2 2 + countAt x.startItems.2 3),
       BitVec.ofNat 16 (256 * countAt x.startItems.2 4 + countAt x.startItems.2 5),
       BitVec.ofNat 16 (256 * countAt x.startItems.2 6 + countAt x.startItems.2 7),
       BitVec.ofNat 16
        (([0, 1, 2, 3, 4, 5, 6, 7] : List Nat).foldl (fun v j => 4 * v + contextAt x.startItems.2 j) 0)] := by
  have code : wordOf (st.cadence + startCode st.start * 256 +
      (match st.start with | some (.sequence es) => es.length - 1 | _ => 0) * 1024) =
        BitVec.ofNat 16 (st.cadence + x.startItems.1) := by
    rw [start, Nat.add_assoc, Selection.startItems_code]
    rfl
  obtain ⟨low, high⟩ := classesWord_eq st.classes
  refine congrArg₂ (· ++ ·) (List.map_congr_left fun p _ => portWord_eq p)
    (congrArg₂ List.cons code (congrArg₂ List.cons low (congrArg₂ List.cons high ?_)))
  simp only [countAt_eq, contextAt_eq, start, Selection.startItems_entries, Nat.mul_comm _ 256, Nat.mul_comm _ 4, wordOf]

/-- The settings that SAVE-SETTINGS saves, spelled (R116, R207). -/
theorem State.settingsBody_settings (s : State) :
    settingsBody s.settings =
      (s.ports.toList.map fun p => BitVec.ofNat 16 (4096 * (if p.config.enabled then 1 else 0) +
        256 * lossCode p.config.loss + 16 * patternCode p.config.pattern + forcedCode p.config.forced)) ++
      [BitVec.ofNat 16 (s.cadence + s.ms.selection.startItems.1),
       BitVec.ofNat 16 (([0, 1, 2, 3, 4, 5, 6, 7] : List (Fin 16)).foldl (fun v j => 4 * v + (s.ns.slots[j].cls).1) 0),
       BitVec.ofNat 16
        (([8, 9, 10, 11, 12, 13, 14, 15] : List (Fin 16)).foldl (fun v j => 4 * v + (s.ns.slots[j].cls).1) 0),
       BitVec.ofNat 16 (256 * countAt s.ms.selection.startItems.2 0 + countAt s.ms.selection.startItems.2 1),
       BitVec.ofNat 16 (256 * countAt s.ms.selection.startItems.2 2 + countAt s.ms.selection.startItems.2 3),
       BitVec.ofNat 16 (256 * countAt s.ms.selection.startItems.2 4 + countAt s.ms.selection.startItems.2 5),
       BitVec.ofNat 16 (256 * countAt s.ms.selection.startItems.2 6 + countAt s.ms.selection.startItems.2 7),
       BitVec.ofNat 16
        (([0, 1, 2, 3, 4, 5, 6, 7] : List Nat).foldl (fun v j => 4 * v + contextAt s.ms.selection.startItems.2 j) 0)] := by
  have classes (j : Fin 16) : s.settings.classes[j] = s.ns.slots[j].cls := Vector.getElem_map ..
  have ports : s.settings.ports.toList = s.ports.toList.map Port.config := Vector.toList_map
  rw [settingsBody_eq s.settings s.ms.selection rfl, ports, List.map_map]
  simp only [classes]
  rfl

/-- The image of a context (R207). -/
theorem contextImage_eq (x : Context) :
    contextImage x =
      [BitVec.ofNat 16 x.fill.c0, BitVec.ofNat 16 x.fill.c1, BitVec.ofNat 16 x.fill.c2,
       BitVec.ofNat 16 (used x.table).length] ++ (used x.table).flatMap fun e =>
        [BitVec.ofNat 16 e.1, BitVec.ofNat 16 (256 * e.2.port.1 + e.2.pos.1), BitVec.ofNat 16 e.2.x,
         BitVec.ofNat 16 e.2.y, BitVec.ofNat 16 (256 * (e.2.w - 1) + (e.2.h - 1)),
         BitVec.ofNat 16 ((if e.2.mirrorH then 32768 else 0) + (if e.2.mirrorV then 16384 else 0) + 256 * e.2.table.1 +
           e.2.bright)] :=
  congrArg (List.append _) (congrArg (List.flatMap · (used x.table)) (funext entryWords_eq))

/-! ## The tests and the acceptance -/

section
variable {s t : State} {own : State × Reply} {full : Bool}

theorem storeTests_busy (busy : s.rs.op ≠ none) : storeTests full s own = refuse .busy s :=
  if_pos (Option.isSome_iff_ne_none.mpr busy)

theorem storeTests_full (free : s.rs.op = none) (marked : s.rs.full = true) :
    storeTests true s own = refuse .storeFull s := by
  rw [storeTests, if_neg (by simp [free]), if_pos ⟨rfl, marked⟩]

theorem storeTests_own (free : s.rs.op = none) (room : full = false ∨ s.rs.full = false) :
    storeTests full s own = own := by
  rw [storeTests, if_neg (by simp [free]), if_neg (by rcases room with room | room <;> simp [room])]

variable {kind : ReqKind} {k : RecKey} {i : Fin 4} {key : Byte} {body : List Word}

theorem State.acceptSave_full (unmarked : s.rs.full = false) (few : 32768 < s.rs.append + 4 + body.length) :
    s.acceptSave kind k i key body = refuse .storeFull s := by
  have less : s.rs.freeWords < 4 + body.length := by
    simp only [RecordStore.freeWords, unmarked, Config.bankWords, Bool.false_eq_true, if_false]
    omega
  exact if_pos less

theorem State.acceptSave_room (unmarked : s.rs.full = false) (room : s.rs.append + 4 + body.length ≤ 32768) :
    s.acceptSave kind k i key body =
      State.accept kind (some k) i key s.rs.append body
        { s with rs := { s.rs with append := s.rs.append + 4 + body.length } } := by
  have enough : ¬s.rs.freeWords < 4 + body.length := by
    simp only [RecordStore.freeWords, unmarked, Config.bankWords, Bool.false_eq_true, if_false]
    omega
  rw [State.acceptSave, if_neg enough, State.advanceAppend, Nat.add_assoc]

theorem State.acceptRestore_none (missing : s.rs.directory[k.idx] = none) :
    s.acceptRestore kind k i key = refuse .notFound s := by
  rw [State.acceptRestore, RecordStore.entry, missing]

theorem State.acceptRestore_some {en : DirEntry} (present : s.rs.directory[k.idx] = some en) :
    s.acceptRestore kind k i key =
      s.accept kind (some k) i key en.addr (recordBody (s.rs.bank s.rs.active) en.addr en.len) := by
  rw [State.acceptRestore, RecordStore.entry, present]

theorem MapStore.ownsEdit_iff {m : MapStore} : m.ownsEdit key = true ↔ ∃ b, m.edit = some b ∧ b.owner = key := by
  cases present : m.edit <;> simp [MapStore.ownsEdit, present]

theorem CorrectionUnit.ownsStaging_iff {u : CorrectionUnit} :
    u.ownsStaging key = true ↔ ∃ t curves, u.staging = .owned key t curves := by
  cases staging : u.staging with
  | free | held => simp [CorrectionUnit.ownsStaging, staging]
  | owned k t curves =>
    rw [CorrectionUnit.ownsStaging, staging]
    constructor
    · exact fun same => ⟨t, curves, by rw [eq_of_beq same]⟩
    · rintro ⟨_, _, owned⟩
      cases owned
      exact beq_self_eq_true _

theorem State.tableClaimed_iff {x : Fin 8} :
    s.tableClaimed x = true ↔ s.ms.install = some x ∨ ∃ key curves, s.cu.staging = .owned key x curves := by
  cases staging : s.cu.staging <;> simp [State.tableClaimed, staging]

theorem State.settings_congr (tested : Tested s t) : t.settings = s.settings := by
  have kinds : ∀ j : Fin 16, ∃ k ∈ NoticeKind.all, k.idx = j := by decide
  have each (j : Fin 16) : t.ns.slots[j].cls = s.ns.slots[j].cls := by
    obtain ⟨k, -, rfl⟩ := kinds j
    exact tested.classes k
  have classes : t.ns.slots.map NoticeSlot.cls = s.ns.slots.map NoticeSlot.cls :=
    Vector.ext fun j small => by simpa using each ⟨j, small⟩
  simp only [State.settings, tested.ports, tested.cadence, tested.ms, classes]

end

/-! ## What the body of each long request tests and does -/

section
variable {i : Fin 4} {key : Byte} {slot : Option (Fin 8)} {ops : List Byte} {s : State}

theorem saveContextBody_session {x : Fin 4} (spelled : finOperand 4 ops = some x) :
    saveContextBody ⟨.session i key, slot, ops⟩ s =
      storeTests true s (if s.ms.isReady x then s.acceptSave .saveContext (.context x) i key (contextImage s.ms.contexts[x])
        else refuse .notReady s) := by
  simp only [saveContextBody, forSession, spelled]

theorem saveTableBody_session {x : Fin 8} (spelled : finOperand 8 ops = some x) :
    saveTableBody ⟨.session i key, slot, ops⟩ s =
      storeTests true s (if s.tableClaimed x then refuse .busy s
        else s.acceptSave .saveTable (.table x) i key (tableBody s.cu.tables[x])) := by
  simp only [saveTableBody, forSession, spelled]

theorem saveSettingsBody_session (plain : ops = []) :
    saveSettingsBody ⟨.session i key, slot, ops⟩ s =
      storeTests true s (s.acceptSave .saveSettings .settings i key (settingsBody s.settings)) := by
  simp only [saveSettingsBody, forSession, plain, noOperands]

/-- A deletion's own conditions (R122). -/
def State.acceptDelete (k : RecKey) (i : Fin 4) (key : Byte) (s : State) : State × Reply :=
  match s.rs.entry k with
  | none => refuse .notFound s
  | some e => s.accept .deleteRecord (some k) i key e.addr []

theorem deleteRecordBody_session {k : RecKey} (spelled : keyOperand ops = some k) :
    deleteRecordBody ⟨.session i key, slot, ops⟩ s = storeTests true s (s.acceptDelete k i key) := by
  simp only [deleteRecordBody, forSession, spelled]
  rfl

theorem State.acceptDelete_none {k : RecKey} (missing : s.rs.directory[k.idx] = none) :
    s.acceptDelete k i key = refuse .notFound s := by
  rw [State.acceptDelete, RecordStore.entry, missing]

theorem State.acceptDelete_some {k : RecKey} {en : DirEntry} (present : s.rs.directory[k.idx] = some en) :
    s.acceptDelete k i key = s.accept .deleteRecord (some k) i key en.addr [] := by
  rw [State.acceptDelete, RecordStore.entry, present]

theorem restoreContextBody_owner {x : Fin 4} (spelled : contextKeyOperand ops = some x) (owner : s.ms.ownsEdit key = true) :
    restoreContextBody ⟨.session i key, slot, ops⟩ s =
      storeTests false s (s.acceptRestore .restoreContext (.context x) i key) := by
  simp only [restoreContextBody, forSession, spelled, owner, if_true]

theorem restoreContextBody_other {x : Fin 4} (spelled : contextKeyOperand ops = some x)
    (other : ¬s.ms.ownsEdit key = true) :
    restoreContextBody ⟨.session i key, slot, ops⟩ s = refuse .notOwner s := by
  simp only [restoreContextBody, forSession, spelled, other]
  rfl

theorem restoreTableBody_owner {x : Fin 8} (spelled : tableKeyOperand ops = some x) (owner : s.cu.ownsStaging key = true) :
    restoreTableBody ⟨.session i key, slot, ops⟩ s =
      storeTests false s (s.acceptRestore .restoreTable (.table x) i key) := by
  simp only [restoreTableBody, forSession, spelled, owner, if_true]

theorem restoreTableBody_other {x : Fin 8} (spelled : tableKeyOperand ops = some x)
    (other : ¬s.cu.ownsStaging key = true) :
    restoreTableBody ⟨.session i key, slot, ops⟩ s = refuse .notOwner s := by
  simp only [restoreTableBody, forSession, spelled, other]
  rfl

theorem compactBody_session (plain : ops = []) :
    compactBody ⟨.session i key, slot, ops⟩ s = storeTests false s (s.accept .compact none i key s.rs.append []) := by
  simp only [compactBody, forSession, plain, noOperands]

theorem eraseStoreBody_session (plain : ops = []) :
    eraseStoreBody ⟨.session i key, slot, ops⟩ s = storeTests false s (s.accept .eraseStore none i key s.rs.append []) := by
  simp only [eraseStoreBody, forSession, plain, noOperands]

/-- A long request well formed, and of the owner where it needs one, is tested before its own conditions. -/
def TestedFirst (full : Bool) (kind : ReqKind) (k : Call) (s : State) : Prop :=
  ∃ own, requestBody kind k s = storeTests full s own

/-- The kinds that write records. -/
theorem marked_testedFirst {kind : ReqKind}
    (marked : kind ∈ ([.saveContext, .saveTable, .saveSettings, .deleteRecord] : List ReqKind))
    (formed : kind.malformed ops = false) : TestedFirst true kind ⟨.session i key, slot, ops⟩ s := by
  simp only [List.mem_cons, List.not_mem_nil, or_false] at marked
  rcases marked with rfl | rfl | rfl | rfl
  · obtain ⟨x, spelled⟩ := Option.isSome_iff_exists.mp (by simpa [ReqKind.malformed] using formed)
    exact ⟨_, saveContextBody_session spelled⟩
  · obtain ⟨x, spelled⟩ := Option.isSome_iff_exists.mp (by simpa [ReqKind.malformed] using formed)
    exact ⟨_, saveTableBody_session spelled⟩
  · exact ⟨_, saveSettingsBody_session (by simpa [ReqKind.malformed] using formed)⟩
  · obtain ⟨x, spelled⟩ := Option.isSome_iff_exists.mp (by simpa [ReqKind.malformed] using formed)
    exact ⟨_, deleteRecordBody_session spelled⟩

/-- The long requests. -/
theorem long_testedFirst {kind : ReqKind}
    (long : kind ∈ ([.saveContext, .saveTable, .saveSettings, .restoreContext, .restoreTable, .deleteRecord, .compact,
      .eraseStore] : List ReqKind))
    (formed : kind.malformed ops = false) (editor : kind = .restoreContext → s.ms.ownsEdit key = true)
    (stager : kind = .restoreTable → s.cu.ownsStaging key = true) :
    ∃ full, TestedFirst full kind ⟨.session i key, slot, ops⟩ s := by
  simp only [List.mem_cons, List.not_mem_nil, or_false] at long
  rcases long with rfl | rfl | rfl | rfl | rfl | rfl | rfl | rfl
  · exact ⟨_, marked_testedFirst (by decide) formed⟩
  · exact ⟨_, marked_testedFirst (by decide) formed⟩
  · exact ⟨_, marked_testedFirst (by decide) formed⟩
  · obtain ⟨x, spelled⟩ := Option.isSome_iff_exists.mp (by simpa [ReqKind.malformed] using formed)
    exact ⟨_, _, restoreContextBody_owner spelled (editor rfl)⟩
  · obtain ⟨x, spelled⟩ := Option.isSome_iff_exists.mp (by simpa [ReqKind.malformed] using formed)
    exact ⟨_, _, restoreTableBody_owner spelled (stager rfl)⟩
  · exact ⟨_, marked_testedFirst (by decide) formed⟩
  · exact ⟨_, _, compactBody_session (by simpa [ReqKind.malformed] using formed)⟩
  · exact ⟨_, _, eraseStoreBody_session (by simpa [ReqKind.malformed] using formed)⟩

end

theorem contextKeyOperand_code (x : Fin 4) : contextKeyOperand [byteOf (keyIndex (some (.context x)))] = some x := by
  rw [contextKeyOperand, keyOperand_code]

theorem tableKeyOperand_code (x : Fin 8) : tableKeyOperand [byteOf (keyIndex (some (.table x)))] = some x := by
  rw [tableKeyOperand, keyOperand_code]

/-- Settles O50: each request is tested first, and then does what its own conditions say. -/
theorem storeRequestsAreTestedAndAccepted : Obligations.StoreRequestsAreTestedAndAccepted := by
  intro dt c rq i d e cache s turn ready long marked refused accepted editor stager saved copy w image settings
  have refusedBy {kind : ReqKind} {st : Status} (kind_ne : kind ≠ .openSession)
      (body : ∀ t, Tested s t → requestBody kind ⟨.session i c.key, some rq, c.ops⟩ t = refuse st t) : refused kind st :=
    answeredInSession_same (requestBody kind) turn (exec_requestInstr kind_ne turn.addressed.assigned) body fun _ => rfl
  have acceptedBy {kind : ReqKind} {k : Option RecKey} {addr append : Nat} {body : List Word} (kind_ne : kind ≠ .openSession)
      (accepts : ∀ t, Tested s t → requestBody kind ⟨.session i c.key, some rq, c.ops⟩ t =
        State.accept kind k i c.key addr body { t with rs := { t.rs with append := append } }) :
      accepted kind k addr append body := by
    have taken := request_accepted turn kind (requestBody kind) _ e cache ready (accepts _ (Tested.received ..))
      (State.received_sessions dt (reqCode kind) c rq s)
    refine (exec_requestInstr kind_ne turn.addressed.assigned).trans (taken.trans ?_)
    refine congrArg Host.Outcome.next ?_
    rw [State.acceptedIn, State.received_now, State.received_sessions]
  have savedBy {kind : ReqKind} {k : RecKey} {body : List Word} (kind_ne : kind ≠ .openSession)
      (unmarked : s.rs.full = false)
      (saves : ∀ t, Tested s t →
        requestBody kind ⟨.session i c.key, some rq, c.ops⟩ t = t.acceptSave kind k i c.key body) :
      saved kind k body := by
    refine ⟨fun room => acceptedBy kind_ne fun t tested => ?_, fun few => refusedBy kind_ne fun t tested => ?_⟩
    · rw [saves t tested, State.acceptSave_room (tested.rs ▸ unmarked) (tested.rs ▸ room), tested.rs]
    · rw [saves t tested, State.acceptSave_full (tested.rs ▸ unmarked) (tested.rs ▸ few)]
  refine ⟨fun busy kind isLong formed ownsBuffer ownsStaging => ?busy, fun other formed => ?notEditor,
    fun other formed => ?notStager, fun free isFull kind isMarked formed => ?full, fun free unmarked => ?writes,
    fun free => ?restores⟩
  case busy =>
    have kind_ne : kind ≠ .openSession := by
      rintro rfl
      exact absurd isLong (by decide)
    refine refusedBy kind_ne fun t tested => ?_
    obtain ⟨full, own, first⟩ := long_testedFirst (i := i) (slot := some rq) (s := t) isLong formed
      (fun restores => tested.ms ▸ MapStore.ownsEdit_iff.mpr (ownsBuffer restores))
      (fun restores => tested.cu ▸ CorrectionUnit.ownsStaging_iff.mpr (ownsStaging restores))
    rw [first, storeTests_busy (tested.rs ▸ busy)]
  case notEditor =>
    obtain ⟨x, spelled⟩ := Option.isSome_iff_exists.mp (by simpa [ReqKind.malformed] using formed)
    exact refusedBy (by decide) fun t tested =>
      restoreContextBody_other spelled (tested.ms ▸ mt MapStore.ownsEdit_iff.mp other)
  case notStager =>
    obtain ⟨x, spelled⟩ := Option.isSome_iff_exists.mp (by simpa [ReqKind.malformed] using formed)
    exact refusedBy (by decide) fun t tested =>
      restoreTableBody_other spelled (tested.cu ▸ mt CorrectionUnit.ownsStaging_iff.mp other)
  case full =>
    have kind_ne : kind ≠ .openSession := by
      rintro rfl
      exact absurd isMarked (by decide)
    refine refusedBy kind_ne fun t tested => ?_
    obtain ⟨own, first⟩ := marked_testedFirst (i := i) (key := c.key) (slot := some rq) (s := t) isMarked formed
    rw [first, storeTests_full (tested.rs ▸ free) (tested.rs ▸ isFull)]
  case writes =>
    have reaches (t : State) (tested : Tested s t) (own : State × Reply) : storeTests true t own = own :=
      storeTests_own (tested.rs ▸ free) (.inr (tested.rs ▸ unmarked))
    refine ⟨fun x ops => ?context, fun x ops => ?table, fun plain => ?settings, fun k ops => ?delete⟩
    case context =>
      have body (t : State) (tested : Tested s t) := (saveContextBody_session (i := i) (key := c.key) (slot := some rq)
        (s := t) (ops ▸ finOperand_val x (by decide : 4 ≤ 256))).trans (reaches t tested _)
      refine ⟨fun notReady => refusedBy (by decide) fun t tested => (body t tested).trans ?_,
        fun isReady => savedBy (by decide) unmarked fun t tested => (body t tested).trans ?_⟩
      · rw [if_neg]
        simpa [MapStore.isReady, tested.ms] using notReady
      · rw [if_pos (by simpa [MapStore.isReady, tested.ms] using isReady), contextImage_eq, tested.ms]
    case table =>
      intro claimed
      have body (t : State) (tested : Tested s t) := (saveTableBody_session (i := i) (key := c.key) (slot := some rq)
        (s := t) (ops ▸ finOperand_val x (by decide : 8 ≤ 256))).trans (reaches t tested _)
      have claims {t : State} (tested : Tested s t) : t.tableClaimed x = true ↔ claimed := by
        rw [State.tableClaimed_iff, tested.ms, tested.cu]
      refine ⟨fun isClaimed => refusedBy (by decide) fun t tested => (body t tested).trans ?_,
        fun notClaimed => savedBy (by decide) unmarked fun t tested => (body t tested).trans ?_⟩
      · rw [if_pos ((claims tested).mpr isClaimed)]
      · rw [if_neg (mt (claims tested).mp notClaimed), tested.cu]
        rfl
    case settings =>
      refine savedBy (by decide) unmarked fun t tested => ?_
      refine (saveSettingsBody_session plain).trans ((reaches t tested _).trans ?_)
      rw [State.settings_congr tested, State.settingsBody_settings]
      rfl
    case delete =>
      have body (t : State) (tested : Tested s t) := (deleteRecordBody_session (i := i) (key := c.key) (slot := some rq)
        (s := t) (ops ▸ keyOperand_code k)).trans (reaches t tested _)
      refine ⟨fun missing => refusedBy (by decide) fun t tested => (body t tested).trans ?_,
        fun en present => acceptedBy (by decide) fun t tested => (body t tested).trans ?_⟩
      · exact State.acceptDelete_none (tested.rs ▸ missing)
      · rw [State.acceptDelete_some (tested.rs ▸ present), tested.rs.symm]
  case restores =>
    have reaches (t : State) (tested : Tested s t) (own : State × Reply) : storeTests false t own = own :=
      storeTests_own (tested.rs ▸ free) (.inl rfl)
    have copied {t : State} (tested : Tested s t) (en : DirEntry) :
        copy en = recordBody (t.rs.bank t.rs.active) en.addr en.len := by
      show recordBody (s.rs.bank s.rs.active) en.addr en.len = _
      rw [tested.rs]
    refine ⟨fun x ops owner => ?context, fun x ops owner => ?table, fun plain => ⟨?compact, ?erase⟩⟩
    case context =>
      have body (t : State) (tested : Tested s t) := (restoreContextBody_owner (i := i) (key := c.key) (slot := some rq)
        (s := t) (ops ▸ contextKeyOperand_code x) (tested.ms ▸ MapStore.ownsEdit_iff.mpr owner)).trans (reaches t tested _)
      refine ⟨fun missing => refusedBy (by decide) fun t tested => (body t tested).trans ?_,
        fun en present => acceptedBy (by decide) fun t tested => (body t tested).trans ?_⟩
      · exact State.acceptRestore_none (tested.rs ▸ missing)
      · rw [State.acceptRestore_some (tested.rs ▸ present), copied tested, tested.rs.symm]
    case table =>
      have body (t : State) (tested : Tested s t) := (restoreTableBody_owner (i := i) (key := c.key) (slot := some rq)
        (s := t) (ops ▸ tableKeyOperand_code x) (tested.cu ▸ CorrectionUnit.ownsStaging_iff.mpr owner)).trans
          (reaches t tested _)
      refine ⟨fun missing => refusedBy (by decide) fun t tested => (body t tested).trans ?_,
        fun en present => acceptedBy (by decide) fun t tested => (body t tested).trans ?_⟩
      · exact State.acceptRestore_none (tested.rs ▸ missing)
      · rw [State.acceptRestore_some (tested.rs ▸ present), copied tested, tested.rs.symm]
    case compact =>
      refine acceptedBy (by decide) fun t tested => (compactBody_session plain).trans ((reaches t tested _).trans ?_)
      rw [tested.rs.symm]
    case erase =>
      refine acceptedBy (by decide) fun t tested => (eraseStoreBody_session plain).trans ((reaches t tested _).trans ?_)
      rw [tested.rs.symm]

end Sys2Proof.Machine
end

section
/-!
PROOFS. The ends of the long store operations: how they are answered (R113, R167, R168), and the restores (R120, R121,
R128).
-/

namespace Sys2Proof.Machine

/-! ## The end of an operation -/

section
variable {s : State} {op : Operation} {d : Session} {kind : ReqKind} {seq : Byte} {rq : Fin 8} {st : Status}
  {res : List Byte}

/-- The response of an operation whose session waits for it (R167). -/
theorem State.finish_attached (attached : op.attached = true) (session : s.sessions[op.slot] = some d)
    (waits : ∃ held, d.state = .waiting held kind seq rq) :
    s.finish op st res = s.completedIn op d kind seq rq st res := by
  obtain ⟨held, waiting⟩ := waits
  simp only [State.finish, attached, if_true, State.answerLong, session, waiting, State.modSession, State.fill,
    Option.map_some]
  rfl

/-- An operation whose session a SOFT reset ended only ends (R128, R168). -/
theorem State.finish_detached (detached : op.attached = false) :
    s.finish op st res = { s with rs := { s.rs with op := none } } := by
  rw [State.finish, detached]
  rfl

end

/-! ## Restores -/

section
variable {s : State} {op : Operation} {dt : Nat}

theorem exec_restoreContextCompletion (released : s.held = false) (flies : s.rs.op = some op)
    (kind : op.kind = .restoreContext) :
    exec (.restoreContextCompletion dt) s = .next ((s.elapse dt).restoreContextEnds op) := by
  have flies : (s.elapse dt).rs.op = some op := flies
  show execRestoreContextCompletion dt s = _
  rw [execRestoreContextCompletion, State.take_released released]
  simp only [flies, kind, if_true]

theorem exec_restoreTableCompletion (released : s.held = false) (flies : s.rs.op = some op)
    (kind : op.kind = .restoreTable) :
    exec (.restoreTableCompletion dt) s = .next ((s.elapse dt).restoreTableEnds op) := by
  have flies : (s.elapse dt).rs.op = some op := flies
  show execRestoreTableCompletion dt s = _
  rw [execRestoreTableCompletion, State.take_released released]
  simp only [flies, kind, if_true]

theorem RecordStore.copyIntact_iff {r : RecordStore} :
    r.copyIntact op = true ↔ bankRead (r.bank r.active) (op.addr + 3) = crcWords op.body := beq_iff_eq

theorem State.restoreContextEnds_broken (broken : ¬s.rs.copyIntact op = true) :
    s.restoreContextEnds op = s.finish op .checkFail [0] := if_pos (by simpa using broken)

theorem State.restoreTableEnds_broken (broken : ¬s.rs.copyIntact op = true) :
    s.restoreTableEnds op = s.finish op .checkFail [0] := if_pos (by simpa using broken)

theorem State.restoreContextEnds_noImage (intact : s.rs.copyIntact op = true) {n : Nat}
    (image : imageCheck op.body = .inl n) : s.restoreContextEnds op = s.finish op .checkFail [1, byteOf n] := by
  rw [State.restoreContextEnds, if_neg (by simp [intact]), image]

theorem State.restoreContextEnds_image (intact : s.rs.copyIntact op = true) {f : Rgb} {ts : TileTable}
    (image : imageCheck op.body = .inr (f, ts)) :
    s.restoreContextEnds op =
      State.finish op .ok [byteOf (used ts).length]
        (if op.attached ∧ s.ms.ownsEdit op.session then { s with ms := s.ms.restored f ts } else s) := by
  rw [State.restoreContextEnds, if_neg (by simp [intact]), image]
  dsimp only
  split <;> rfl

theorem State.restoreTableEnds_noCurves (intact : s.rs.copyIntact op = true) (form : curvesOfBody op.body = none) :
    s.restoreTableEnds op = s.finish op .checkFail [1] := by
  rw [State.restoreTableEnds, if_neg (by simp [intact]), form]

theorem State.restoreTableEnds_curves (intact : s.rs.copyIntact op = true) {curves : Curves}
    (form : curvesOfBody op.body = some curves) :
    s.restoreTableEnds op =
      State.finish op .ok []
        (if op.attached ∧ s.cu.ownsStaging op.session then { s with cu := s.cu.stage fun _ => curves } else s) := by
  rw [State.restoreTableEnds, if_neg (by simp [intact]), form]
  dsimp only
  split <;> rfl

/-- Without its session a restore changes nothing but the operation in flight. -/
theorem State.restoreContextEnds_detached (detached : op.attached = false) :
    s.restoreContextEnds op = { s with rs := { s.rs with op := none } } := by
  by_cases intact : s.rs.copyIntact op = true
  · cases image : imageCheck op.body with
    | inl n => rw [State.restoreContextEnds_noImage intact image, State.finish_detached detached]
    | inr p => rw [State.restoreContextEnds_image intact image, if_neg (by simp [detached]), State.finish_detached detached]
  · rw [State.restoreContextEnds_broken intact, State.finish_detached detached]

theorem State.restoreTableEnds_detached (detached : op.attached = false) :
    s.restoreTableEnds op = { s with rs := { s.rs with op := none } } := by
  by_cases intact : s.rs.copyIntact op = true
  · cases form : curvesOfBody op.body with
    | none => rw [State.restoreTableEnds_noCurves intact form, State.finish_detached detached]
    | some t => rw [State.restoreTableEnds_curves intact form, if_neg (by simp [detached]), State.finish_detached detached]
  · rw [State.restoreTableEnds_broken intact, State.finish_detached detached]

end

/-! ## Curves of a record (R207) -/

section
variable {α : Type} [DecidableEq α] {dflt : Nat → α} {m : Cells α}

/-- Values written from an address on leave what is below it. -/
theorem cellRead_writeList_below (wf : Memory.wf dflt m = true) {a b : Nat} (below : b < a) (vs : List α) :
    cellRead dflt (cellWriteList dflt a vs m) b = cellRead dflt m b := by
  induction vs generalizing a m with
  | nil => rfl
  | cons v vs ih =>
    rw [cellWriteList, ih (Memory.wf_write a v wf) (by omega), cellRead_cellWrite wf, if_neg (by omega)]

theorem cellRead_writeList (wf : Memory.wf dflt m = true) {a j : Nat} {vs : List α} {v : α} (written : vs[j]? = some v) :
    cellRead dflt (cellWriteList dflt a vs m) (a + j) = v := by
  induction vs generalizing a j m with
  | nil => cases written
  | cons u vs ih =>
    rw [cellWriteList]
    cases j with
    | zero =>
      have same : u = v := by simpa using written
      show cellRead dflt (cellWriteList dflt (a + 1) vs (cellWrite dflt a u m)) a = v
      rw [cellRead_writeList_below (Memory.wf_write a u wf) (Nat.lt_add_one a), cellRead_cellWrite wf, if_pos rfl, same]
    | succ j =>
      rw [← Nat.add_assoc, Nat.add_right_comm]
      exact ih (Memory.wf_write a u wf) written

end

theorem curvesOfBody_in {ws : List Word} (form : ws.length = 3072 ∧ ∀ w ∈ ws, w.toNat < 4096) :
    curvesOfBody ws = some (curvesOf (ws.map BitVec.toNat)) :=
  if_pos ⟨form.1, by simpa using form.2⟩

theorem curvesOfBody_out {ws : List Word} (form : ¬(ws.length = 3072 ∧ ∀ w ∈ ws, w.toNat < 4096)) :
    curvesOfBody ws = none :=
  if_neg fun ⟨length, range⟩ => form ⟨length, by simpa using range⟩

theorem curveEntry_curvesOf {vs : List Nat} {j v : Nat} (entry : vs[j]? = some v) : curveEntry (curvesOf vs) j = v := by
  have read := cellRead_writeList (dflt := identityEntry) (m := []) (a := 0) rfl entry
  rwa [Nat.zero_add] at read

/-- Settles O52: how a restore ends by its copy, and for whom. -/
theorem restoreCompletions : Obligations.RestoreCompletions := by
  refine ⟨fun dt op d kind seq rq s flight => ?attached, fun dt op s released flies detached => ?detached, fun ws => ?curves⟩
  case attached =>
    intro intact ends cmd tab t
    have intact_iff : t.rs.copyIntact op = true ↔ intact := RecordStore.copyIntact_iff
    have answers {t' : State} {st : Status} {res : List Byte} (sessions : t'.sessions = s.sessions) :
        t'.finish op st res = t'.completedIn op d kind seq rq st res :=
      State.finish_attached flight.attached (sessions ▸ flight.session) flight.waiting
    refine ⟨fun context => ?context, fun table => ?table⟩
    case context =>
      have answered {t' : State} {st : Status} {res : List Byte} (sessions : t'.sessions = s.sessions)
          (stands : t.restoreContextEnds op = t'.finish op st res) : ends cmd t' st res :=
        (exec_restoreContextCompletion flight.released flight.flying context).trans
          (congrArg Host.Outcome.next (stands.trans (answers sessions)))
      refine ⟨fun broken => answered rfl (State.restoreContextEnds_broken (mt intact_iff.mp broken)),
        fun n whole image => answered rfl (State.restoreContextEnds_noImage (intact_iff.mpr whole) image),
        fun f ts whole image => ⟨fun b present owner => answered rfl ?_, fun other => answered rfl ?_⟩⟩
      · have owns : t.ms.ownsEdit op.session = true := MapStore.ownsEdit_iff.mpr ⟨b, present, owner⟩
        have restored : t.ms.restored f ts = { s.ms with edit := some { b with table := ts, fill := f, result := none } } := by
          rw [MapStore.restored, show t.ms.edit = some b from present]
          rfl
        rw [State.restoreContextEnds_image (intact_iff.mpr whole) image, if_pos ⟨flight.attached, owns⟩, restored]
      · have lost : ¬t.ms.ownsEdit op.session = true := fun owns => by
          obtain ⟨b, present, owner⟩ := MapStore.ownsEdit_iff.mp owns
          exact other b present owner
        rw [State.restoreContextEnds_image (intact_iff.mpr whole) image, if_neg (fun both => lost both.2)]
    case table =>
      have answered {t' : State} {st : Status} {res : List Byte} (sessions : t'.sessions = s.sessions)
          (stands : t.restoreTableEnds op = t'.finish op st res) : ends tab t' st res :=
        (exec_restoreTableCompletion flight.released flight.flying table).trans
          (congrArg Host.Outcome.next (stands.trans (answers sessions)))
      refine ⟨fun broken => answered rfl (State.restoreTableEnds_broken (mt intact_iff.mp broken)),
        fun whole form => answered rfl (State.restoreTableEnds_noCurves (intact_iff.mpr whole) form),
        fun curves whole form => ⟨fun u old staging => answered rfl ?_, fun other => answered rfl ?_⟩⟩
      · have owns : t.cu.ownsStaging op.session = true := CorrectionUnit.ownsStaging_iff.mpr ⟨u, old, staging⟩
        have staged : t.cu.stage (fun _ => curves) = { s.cu with staging := .owned op.session u curves } := by
          rw [CorrectionUnit.stage, show t.cu.staging = .owned op.session u old from staging]
          rfl
        rw [State.restoreTableEnds_curves (intact_iff.mpr whole) form, if_pos ⟨flight.attached, owns⟩, staged]
      · have lost : ¬t.cu.ownsStaging op.session = true := fun owns => by
          obtain ⟨u, old, staging⟩ := CorrectionUnit.ownsStaging_iff.mp owns
          exact other u old staging
        rw [State.restoreTableEnds_curves (intact_iff.mpr whole) form, if_neg (fun both => lost both.2)]
  case detached =>
    intro ended
    refine ⟨fun context => ?_, fun table => ?_⟩
    · rw [exec_restoreContextCompletion released flies context, State.restoreContextEnds_detached detached]
      rfl
    · rw [exec_restoreTableCompletion released flies table, State.restoreTableEnds_detached detached]
      rfl
  case curves =>
    intro inForm
    refine ⟨fun out => curvesOfBody_out out, fun form => ⟨_, curvesOfBody_in form, fun j w entry => ?_⟩⟩
    exact curveEntry_curvesOf (by rw [List.getElem?_map, entry]; rfl)

end Sys2Proof.Machine
end

section
/-!
PROOFS. The banks under the accesses of an operation: what a word reads when they are made, fail or are cut off (R106,
R127).
-/

namespace Sys2Proof.Machine

/-! ## One access -/

/-- An access leaves a word of a bank alone. -/
def Access.Spares (b : BankId) (x : Nat) : Access → Prop
  | .program c y _ | .state c y _ _ => c = b → y ≠ x
  | .erase c => c ≠ b

/-- An access programs a word of a bank. -/
def Access.Writes (b : BankId) (x : Nat) (w : Word) : Access → Prop
  | .program c y v | .state c y v _ => c = b ∧ y = x ∧ v = w
  | .erase _ => False

/-- The store after one access, by how it ended. -/
def RecordStore.after (a : Access) (e : Ending) (r : RecordStore) : RecordStore :=
  r.setBank a.bank (a.result e (r.bank a.bank))

section
variable {a : Access} {e : Ending} {r : RecordStore} {b : BankId} {x : Nat} {w : Word}

theorem RecordStore.after_other (other : a.bank ≠ b) : (r.after a e).bank b = r.bank b := by
  unfold RecordStore.after
  generalize a.bank = c at *
  cases b <;> cases c <;> first | rfl | exact absurd rfl other

theorem RecordStore.after_same (same : a.bank = b) : (r.after a e).bank b = a.result e (r.bank b) := by
  subst same
  exact RecordStore.bank_setBank ..

theorem RecordStore.after_wf (wf : Memory.wf erased (r.bank b) = true) :
    Memory.wf erased ((r.after a e).bank b) = true := by
  by_cases same : a.bank = b
  · rw [RecordStore.after_same same]
    exact Access.wf_result a e wf
  · rwa [RecordStore.after_other same]

theorem bankRead_cellWrite_other {c : Cells Word} (wf : Memory.wf erased c = true) {y : Nat} (other : y ≠ x) (w : Word) :
    bankRead (cellWrite erased y w c) x = bankRead c x := by
  rw [bankRead, cellRead_cellWrite wf, if_neg (Ne.symm other)]
  rfl

theorem RecordStore.after_spared (wf : Memory.wf erased (r.bank b) = true) (spares : a.Spares b x) :
    bankRead ((r.after a e).bank b) x = bankRead (r.bank b) x := by
  by_cases same : a.bank = b
  · rw [RecordStore.after_same same]
    cases a with
    | program c y w => exact bankRead_cellWrite_other wf (spares same) _
    | state c y w use => exact bankRead_cellWrite_other wf (spares same) _
    | erase c => exact absurd same spares
  · rw [RecordStore.after_other same]

theorem RecordStore.after_program (wf : Memory.wf erased (r.bank b) = true) :
    bankRead ((r.after (.program b x w) .made).bank b) x = bankRead (r.bank b) x &&& w := by
  rw [RecordStore.after_same (b := b) rfl]
  exact bankRead_cellWrite wf ..

theorem RecordStore.after_state {use : StateUse} (wf : Memory.wf erased (r.bank b) = true) :
    bankRead ((r.after (.state b x w use) e).bank b) x = use.reading (bankRead (r.bank b) x) w e := by
  rw [RecordStore.after_same (b := b) rfl]
  exact bankRead_cellWrite wf ..

/-- A word that was programmed and verified reads as it was meant to. -/
theorem Access.Writes.verified (writes : a.Writes b x w) {c : Cells Word} (passed : a.failure c = none) :
    a.bank = b ∧ bankRead c x = w := by
  cases a with
  | program d y v | state d y v use =>
    obtain ⟨rfl, rfl, rfl⟩ := writes
    refine ⟨rfl, ?_⟩
    by_contra differs
    simp [Access.failure, differs] at passed
  | erase d => exact writes.elim

end

/-! ## Accesses that are made and verified -/

section
variable {m : Option Mishap} {i : Nat} {a : Access} {as pre post : List Access} {r r' : RecordStore} {b : BankId} {x : Nat}
  {w : Word}

/-- The first of some accesses that all passed their verify. -/
theorem RecordStore.perform_cons (done : RecordStore.perform m i (a :: as) r = (r', none)) :
    a.failure ((r.after a (Ending.ofFault m i)).bank a.bank) = none ∧
      RecordStore.perform m (i + 1) as (r.after a (Ending.ofFault m i)) = (r', none) := by
  rw [RecordStore.perform] at done
  split at done
  · cases done
  · exact ⟨by rwa [RecordStore.after_same rfl], done⟩

theorem RecordStore.perform_spared (wf : Memory.wf erased (r.bank b) = true) (spare : ∀ a ∈ as, a.Spares b x)
    (done : RecordStore.perform m i as r = (r', none)) : bankRead (r'.bank b) x = bankRead (r.bank b) x := by
  induction as generalizing i r with
  | nil =>
    cases done
    rfl
  | cons a as ih =>
    obtain ⟨-, rest⟩ := RecordStore.perform_cons done
    rw [ih (RecordStore.after_wf wf) (fun a mem => spare a (List.mem_cons_of_mem _ mem)) rest,
      RecordStore.after_spared wf (spare a (List.mem_cons_self ..))]

/-- The last word programmed at an address stands there when all accesses passed their verify. -/
theorem RecordStore.perform_written (wf : Memory.wf erased (r.bank b) = true) (writes : a.Writes b x w)
    (spare : ∀ a ∈ post, a.Spares b x) (done : RecordStore.perform m i (pre ++ a :: post) r = (r', none)) :
    bankRead (r'.bank b) x = w := by
  induction pre generalizing i r with
  | nil =>
    obtain ⟨passed, rest⟩ := RecordStore.perform_cons done
    obtain ⟨same, reads⟩ := writes.verified passed
    rw [RecordStore.perform_spared (RecordStore.after_wf wf) spare rest, ← reads, same]
  | cons p pre ih =>
    obtain ⟨-, rest⟩ := RecordStore.perform_cons done
    exact ih (RecordStore.after_wf wf) rest

end

/-! ## Accesses that a reset cuts off -/

section
variable {cut : Mishap} {i : Nat} {a : Access} {as bs : List Access} {r : RecordStore} {b : BankId} {x : Nat} {w : Word}

theorem RecordStore.cutOff_made (made : i < cut.step) :
    RecordStore.cutOff cut i (a :: as) r = RecordStore.cutOff cut (i + 1) as (r.after a .made) := if_pos made

theorem RecordStore.cutOff_cut (step : cut.step = i) : RecordStore.cutOff cut i (a :: as) r = r.after a (.cut cut) :=
  if_neg (by omega)

/-- A cut in the first accesses. -/
theorem RecordStore.cutOff_within (reached : i ≤ cut.step) (within : cut.step < i + as.length) :
    RecordStore.cutOff cut i (as ++ bs) r = RecordStore.cutOff cut i as r := by
  rw [RecordStore.cutOff_append cut reached, if_pos within]

/-- A cut past the first accesses. -/
theorem RecordStore.cutOff_past {n : Nat} (length : i + as.length = n) (past : n ≤ cut.step) :
    RecordStore.cutOff cut i (as ++ bs) r = RecordStore.cutOff cut n bs (RecordStore.cutOff cut i as r) := by
  rw [RecordStore.cutOff_append cut (by omega), if_neg (by omega), length]

theorem RecordStore.cutOff_bank_wf (wf : Memory.wf erased (r.bank b) = true) :
    Memory.wf erased ((RecordStore.cutOff cut i as r).bank b) = true := by
  induction as generalizing i r with
  | nil => exact wf
  | cons a as ih =>
    rw [RecordStore.cutOff]
    split
    · exact ih (RecordStore.after_wf wf)
    · exact RecordStore.after_wf wf

theorem RecordStore.cutOff_spared (wf : Memory.wf erased (r.bank b) = true) (spare : ∀ a ∈ as, a.Spares b x) :
    bankRead ((RecordStore.cutOff cut i as r).bank b) x = bankRead (r.bank b) x := by
  induction as generalizing i r with
  | nil => rfl
  | cons a as ih =>
    have first := spare a (List.mem_cons_self ..)
    rw [RecordStore.cutOff]
    split
    · exact (ih (RecordStore.after_wf wf) fun a mem => spare a (List.mem_cons_of_mem _ mem)).trans
        (RecordStore.after_spared wf first)
    · exact RecordStore.after_spared wf first

end

/-! ## The readings of a state word that was cut off (R127) -/

/-- A word reads as none of the four states. -/
theorem namesState_false {w : Word} :
    namesState w = false ↔ w ≠ 0xFFFF ∧ w ≠ 0x0FFF ∧ w ≠ 0x00FF ∧ w ≠ 0x0000 := by
  simp only [namesState, wordFilling, wordActive, wordRetired, Bool.or_eq_false_iff, beq_eq_false_iff_ne, and_assoc]

theorem StateUse.reading_cut_ordinary (old new : Word) (m : Mishap) :
    StateUse.ordinary.reading old new (.cut m) = old ∨ StateUse.ordinary.reading old new (.cut m) = new ∨
      namesState (StateUse.ordinary.reading old new (.cut m)) = false := by
  rcases StateUse.reading_cut .ordinary old new m with same | admitted
  · exact .inl same
  · simpa only [StateUse.admits, Bool.or_eq_true, beq_iff_eq, Bool.not_eq_true', or_assoc] using admitted

theorem StateUse.reading_cut_filling (old new : Word) (m : Mishap) :
    StateUse.filling.reading old new (.cut m) = old ∨ StateUse.filling.reading old new (.cut m) = new ∨
      namesState (StateUse.filling.reading old new (.cut m)) = false := by
  rcases StateUse.reading_cut .filling old new m with same | admitted
  · exact .inl same
  · simpa only [StateUse.admits, Bool.or_eq_true, beq_iff_eq, Bool.not_eq_true', or_assoc] using admitted

theorem StateUse.reading_cut_replaced (old new : Word) (m : Mishap) :
    StateUse.replaced.reading old new (.cut m) = old ∨ StateUse.replaced.reading old new (.cut m) = new := by
  rcases StateUse.reading_cut .replaced old new m with same | admitted
  · exact .inl same
  · simpa only [StateUse.admits, Bool.or_eq_true, beq_iff_eq] using admitted

theorem StateUse.reading_cut_filled (old new : Word) (m : Mishap) :
    StateUse.filled.reading old new (.cut m) = old ∨ namesState (StateUse.filled.reading old new (.cut m)) = false := by
  rcases StateUse.reading_cut .filled old new m with same | admitted
  · exact .inl same
  · simpa only [StateUse.admits, Bool.or_eq_true, beq_iff_eq, Bool.not_eq_true'] using admitted

/-! ## The accesses of a record -/

section
variable {b c : BankId} {a x : Nat} {ws us : List Word}

theorem programWords_length (b : BankId) (a : Nat) (ws : List Word) : (programWords b a ws).length = ws.length := by
  induction ws generalizing a with
  | nil => rfl
  | cons w ws ih => rw [programWords, List.length_cons, List.length_cons, ih]

theorem programWords_append :
    programWords b a (us ++ ws) = programWords b a us ++ programWords b (a + us.length) ws := by
  induction us generalizing a with
  | nil => rfl
  | cons u us ih =>
    rw [List.cons_append, programWords, ih, List.length_cons, Nat.add_right_comm, Nat.add_assoc a]
    rfl

theorem programWords_spares (below : x < a) : ∀ p ∈ programWords b a ws, p.Spares c x := by
  induction ws generalizing a with
  | nil => exact fun p mem => absurd mem List.not_mem_nil
  | cons w ws ih =>
    intro p mem
    rcases List.mem_cons.mp mem with rfl | later
    · exact fun _ => by omega
    · exact ih (by omega) p later

theorem programWords_bank {p : Access} (mem : p ∈ programWords b a ws) : p.bank = b := by
  induction ws generalizing a with
  | nil => cases mem
  | cons w ws ih =>
    rcases List.mem_cons.mp mem with rfl | later
    · rfl
    · exact ih later

variable {key len check : Word} {body : List Word}

theorem writeRecord_length : (writeRecord b a key len check body).length = 5 + body.length := by
  simp [writeRecord, programWords_length]
  omega

theorem writeRecord_spares (below : x < a) : ∀ p ∈ writeRecord b a key len check body, p.Spares c x := by
  intro p mem
  simp only [writeRecord, List.mem_append, List.mem_cons, List.not_mem_nil, or_false] at mem
  rcases mem with (rfl | inside) | rfl
  · exact fun _ => by omega
  · exact programWords_spares (by omega) p inside
  · exact fun _ => by omega

theorem writeRecord_bank {p : Access} (mem : p ∈ writeRecord b a key len check body) : p.bank = b := by
  simp only [writeRecord, List.mem_append, List.mem_cons, List.not_mem_nil, or_false] at mem
  rcases mem with (rfl | inside) | rfl
  · rfl
  · exact programWords_bank inside
  · rfl

end

end Sys2Proof.Machine
end

section
/-!
PROOFS. The end of a save, verified, failed or cut off (R117, R118, R127, R128, R167).
-/

namespace Sys2Proof.Machine

/-! ## How an ended operation is answered -/

/-- An operation that ends is answered to its session, or only ends where a SOFT reset ended the session. -/
theorem ends_of_finish {dt : Nat} {cmd : Instr} {s : State} {op : Operation} {r : RecordStore} {st : Status}
    {res : List Byte} {notice : Option Detail}
    (runs : exec cmd s = .next ((State.finish op st res { s.elapse dt with rs := r }).raiseIf notice)) :
    (∀ d kind seq rq, InFlight s op d kind seq rq →
        exec cmd s = .next
          ((({ s.elapse dt with rs := r } : State).completedIn op d kind seq rq st res).raiseIf notice)) ∧
      (op.attached = false →
        exec cmd s = .next (({ s.elapse dt with rs := { r with op := none } } : State).raiseIf notice)) := by
  refine ⟨fun d kind seq rq flight => ?_, fun detached => ?_⟩
  · rw [runs, State.finish_attached flight.attached (by exact flight.session) flight.waiting]
  · rw [runs, State.finish_detached detached]

/-! ## A record that was written and verified -/

section
variable {m : Option Mishap} {r r' : RecordStore} {b : BankId} {a j : Nat} {key len check w : Word} {body : List Word}
  {post : List Access}

theorem writeRecord_verified_word (wf : Memory.wf erased (r.bank b) = true)
    (spare : ∀ x, a ≤ x → ∀ p ∈ post, p.Spares b x)
    (done : r.perform m 0 (writeRecord b a key len check body ++ post) = (r', none))
    (word : ([key, len, check] ++ body)[j]? = some w) : bankRead (r'.bank b) (a + 1 + j) = w := by
  obtain ⟨within, here⟩ := List.getElem?_eq_some_iff.mp word
  have words : [key, len, check] ++ body =
      ([key, len, check] ++ body).take j ++ w :: ([key, len, check] ++ body).drop (j + 1) := by
    rw [← here, ← List.drop_eq_getElem_cons within, List.take_append_drop]
  have index : (([key, len, check] ++ body).take j).length = j := List.length_take_of_le (le_of_lt within)
  have record : writeRecord b a key len check body ++ post =
      (.state b a wordFilling .ordinary :: programWords b (a + 1) (([key, len, check] ++ body).take j)) ++
        .program b (a + 1 + j) w :: (programWords b (a + 1 + j + 1) (([key, len, check] ++ body).drop (j + 1)) ++
          (.state b a wordActive .ordinary :: post)) := by
    rw [writeRecord, words, programWords_append, ← words, index, programWords]
    simp only [List.append_assoc, List.cons_append, List.nil_append]
  rw [record] at done
  refine RecordStore.perform_written wf (by exact ⟨rfl, rfl, rfl⟩) (fun p mem => ?_) done
  rcases List.mem_append.mp mem with inside | rest
  · exact programWords_spares (by omega) p inside
  · rcases List.mem_cons.mp rest with rfl | last
    · exact fun _ => by omega
    · exact spare _ (by omega) p last

theorem writeRecord_verified_state (wf : Memory.wf erased (r.bank b) = true) (spare : ∀ p ∈ post, p.Spares b a)
    (done : r.perform m 0 (writeRecord b a key len check body ++ post) = (r', none)) :
    bankRead (r'.bank b) a = 0x00FF := by
  rw [writeRecord, List.append_assoc] at done
  exact RecordStore.perform_written wf (by exact ⟨rfl, rfl, rfl⟩) spare done

theorem writeRecord_verified_body (wf : Memory.wf erased (r.bank b) = true)
    (spare : ∀ x, a ≤ x → ∀ p ∈ post, p.Spares b x)
    (done : r.perform m 0 (writeRecord b a key len check body ++ post) = (r', none)) :
    recordBody (r'.bank b) a body.length = body := by
  rw [recordBody, cellReadList_eq]
  refine List.ext_getElem (by simp) fun j _ within => ?_
  have reads := writeRecord_verified_word wf spare done (j := j + 3) (w := body[j]) (by simp [within])
  rw [List.getElem_map, List.getElem_range, ← reads, bankRead]
  congr 1
  omega

end

/-! ## A record whose writing was cut off -/

section
variable {cut : Mishap} {r : RecordStore} {b : BankId} {a : Nat} {key len check : Word} {body : List Word}
  {post : List Access}

theorem writeRecord_cons :
    writeRecord b a key len check body ++ post =
      .state b a wordFilling .ordinary ::
        (programWords b (a + 1) ([key, len, check] ++ body) ++ .state b a wordActive .ordinary :: post) := by
  simp only [writeRecord, List.append_assoc, List.cons_append, List.nil_append]

theorem writeRecord_cut_first (wf : Memory.wf erased (r.bank b) = true) (blank : bankRead (r.bank b) a = 0xFFFF)
    (step : cut.step = 0) :
    let state := bankRead ((RecordStore.cutOff cut 0 (writeRecord b a key len check body ++ post) r).bank b) a
    state = 0xFFFF ∨ state = 0x0FFF ∨ namesState state = false := by
  intro state
  have reads : state = StateUse.ordinary.reading 0xFFFF 0x0FFF (.cut cut) := by
    show bankRead ((RecordStore.cutOff cut 0 (writeRecord b a key len check body ++ post) r).bank b) a = _
    rw [writeRecord_cons, RecordStore.cutOff_cut step, RecordStore.after_state wf, blank]
    rfl
  rw [reads]
  exact StateUse.reading_cut_ordinary ..

/-- From the second access on the state is WRITING until VALID is programmed. -/
theorem writeRecord_begun (wf : Memory.wf erased (r.bank b) = true) (blank : bankRead (r.bank b) a = 0xFFFF) :
    bankRead ((r.after (.state b a wordFilling .ordinary) .made).bank b) a = 0x0FFF := by
  rw [RecordStore.after_state wf, blank]
  rfl

theorem writeRecord_cut_inside (wf : Memory.wf erased (r.bank b) = true) (blank : bankRead (r.bank b) a = 0xFFFF)
    (begun : 1 ≤ cut.step) (within : cut.step < 4 + body.length) :
    bankRead ((RecordStore.cutOff cut 0 (writeRecord b a key len check body ++ post) r).bank b) a = 0x0FFF := by
  have length : (programWords b (a + 1) ([key, len, check] ++ body)).length = 3 + body.length := by
    simp [programWords_length]
    omega
  rw [writeRecord_cons, RecordStore.cutOff_made begun, RecordStore.cutOff_within begun (by omega),
    RecordStore.cutOff_spared (RecordStore.after_wf wf) (programWords_spares (by omega)), writeRecord_begun wf blank]

/-- The store when all words of a record but its VALID state are programmed. -/
def RecordStore.filled (cut : Mishap) (b : BankId) (a : Nat) (key len check : Word) (body : List Word) (r : RecordStore) :
    RecordStore :=
  RecordStore.cutOff cut 1 (programWords b (a + 1) ([key, len, check] ++ body))
    (r.after (.state b a wordFilling .ordinary) .made)

theorem RecordStore.filled_wf (wf : Memory.wf erased (r.bank b) = true) :
    Memory.wf erased ((r.filled cut b a key len check body).bank b) = true :=
  RecordStore.cutOff_bank_wf (RecordStore.after_wf wf)

theorem RecordStore.filled_state (wf : Memory.wf erased (r.bank b) = true) (blank : bankRead (r.bank b) a = 0xFFFF) :
    bankRead ((r.filled cut b a key len check body).bank b) a = 0x0FFF := by
  rw [RecordStore.filled, RecordStore.cutOff_spared (RecordStore.after_wf wf) (programWords_spares (by omega)),
    writeRecord_begun wf blank]

theorem writeRecord_past (past : 4 + body.length ≤ cut.step) :
    RecordStore.cutOff cut 0 (writeRecord b a key len check body ++ post) r =
      RecordStore.cutOff cut (4 + body.length) (.state b a wordActive .ordinary :: post)
        (r.filled cut b a key len check body) := by
  have length : 1 + (programWords b (a + 1) ([key, len, check] ++ body)).length = 4 + body.length := by
    simp [programWords_length]
    omega
  rw [writeRecord_cons, RecordStore.cutOff_made (by omega), RecordStore.cutOff_past length past]
  rfl

theorem writeRecord_cut_last (wf : Memory.wf erased (r.bank b) = true) (blank : bankRead (r.bank b) a = 0xFFFF)
    (step : cut.step = 4 + body.length) :
    let state := bankRead ((RecordStore.cutOff cut 0 (writeRecord b a key len check body ++ post) r).bank b) a
    state = 0x0FFF ∨ state = 0x00FF ∨ namesState state = false := by
  intro state
  have reads : state = StateUse.ordinary.reading 0x0FFF 0x00FF (.cut cut) := by
    show bankRead ((RecordStore.cutOff cut 0 (writeRecord b a key len check body ++ post) r).bank b) a = _
    rw [writeRecord_past (by omega), RecordStore.cutOff_cut step, RecordStore.after_state (RecordStore.filled_wf wf),
      RecordStore.filled_state wf blank]
    rfl
  rw [reads]
  exact StateUse.reading_cut_ordinary ..

theorem writeRecord_cut_past (wf : Memory.wf erased (r.bank b) = true) (blank : bankRead (r.bank b) a = 0xFFFF)
    (spare : ∀ p ∈ post, p.Spares b a) (past : 5 + body.length ≤ cut.step) :
    bankRead ((RecordStore.cutOff cut 0 (writeRecord b a key len check body ++ post) r).bank b) a = 0x00FF := by
  rw [writeRecord_past (by omega), RecordStore.cutOff_made (by omega),
    RecordStore.cutOff_spared (RecordStore.after_wf (RecordStore.filled_wf wf)) spare,
    RecordStore.after_state (RecordStore.filled_wf wf), RecordStore.filled_state wf blank]
  rfl

/-- The length word, once it is programmed. -/
theorem writeRecord_cut_length (wf : Memory.wf erased (r.bank b) = true) (blank : bankRead (r.bank b) (a + 2) = 0xFFFF)
    (spare : ∀ p ∈ post, p.Spares b (a + 2)) (past : 4 ≤ cut.step) :
    bankRead ((RecordStore.cutOff cut 0 (writeRecord b a key len check body ++ post) r).bank b) (a + 2) = len := by
  have words : programWords b (a + 1) ([key, len, check] ++ body) =
      .program b (a + 1) key :: .program b (a + 2) len :: programWords b (a + 3) (check :: body) := rfl
  have wf1 := RecordStore.after_wf (a := .state b a wordFilling .ordinary) (e := .made) wf
  have wf2 := RecordStore.after_wf (a := .program b (a + 1) key) (e := .made) wf1
  rw [writeRecord_cons, words, List.cons_append, List.cons_append, RecordStore.cutOff_made (by omega),
    RecordStore.cutOff_made (by omega), RecordStore.cutOff_made (by omega),
    RecordStore.cutOff_spared (RecordStore.after_wf wf2) fun p mem => ?_, RecordStore.after_program wf2,
    RecordStore.after_spared wf1 fun _ => by omega, RecordStore.after_spared wf fun _ => by omega, blank]
  · exact BitVec.allOnes_and
  · rcases List.mem_append.mp mem with inside | rest
    · exact programWords_spares (by omega) p inside
    · rcases List.mem_cons.mp rest with rfl | later
      · exact fun _ => by omega
      · exact spare p later

/-- A word outside the record, while no later access began. -/
theorem writeRecord_cut_outside {x : Nat} (wf : Memory.wf erased (r.bank b) = true) (below : x < a)
    (within : cut.step < 5 + body.length) :
    bankRead ((RecordStore.cutOff cut 0 (writeRecord b a key len check body ++ post) r).bank b) x =
      bankRead (r.bank b) x := by
  rw [RecordStore.cutOff_within (Nat.zero_le _) (by rw [writeRecord_length]; omega),
    RecordStore.cutOff_spared wf (writeRecord_spares below)]

end

/-! ## The end of a save -/

section
variable {dt : Nat} {fault : Option Mishap} {op : Operation} {k : RecKey} {s : State}

theorem exec_saveCompletion (released : s.held = false) (flies : s.rs.op = some op) (named : op.recKey = some k)
    (save : op.kind ∈ ([.saveContext, .saveTable, .saveSettings] : List ReqKind)) :
    exec (.saveCompletion dt fault) s = .next ((s.elapse dt).saveEnds op k fault) := by
  have flies : (s.elapse dt).rs.op = some op := flies
  have isSave : isSave op.kind = true := by
    simp only [List.mem_cons, List.not_mem_nil, or_false] at save
    rcases save with save | save | save <;> rw [save] <;> rfl
  show execSaveCompletion dt fault s = _
  rw [execSaveCompletion, State.take_released released]
  simp only [flies, named, isSave, if_true]

/-- The access that supersedes the record a save replaces (R117 step 4). -/
def RecordStore.supersedes (r : RecordStore) (k : RecKey) : List Access :=
  match r.directory[k.idx] with
  | some e => [.state r.active e.addr 0 .replaced]
  | none => []

theorem RecordStore.accesses_save (r : RecordStore) (named : op.recKey = some k)
    (save : op.kind ∈ ([.saveContext, .saveTable, .saveSettings] : List ReqKind)) :
    r.accesses op =
      writeRecord r.active op.addr (keyWord k) (BitVec.ofNat 16 op.body.length) (crcWords op.body) op.body ++
        r.supersedes k := by
  simp only [List.mem_cons, List.not_mem_nil, or_false] at save
  rcases save with save | save | save <;> rw [RecordStore.accesses, save, named] <;> rfl

theorem RecordStore.supersedes_none {r : RecordStore} (first : r.directory[k.idx] = none) : r.supersedes k = [] := by
  rw [RecordStore.supersedes, first]

theorem RecordStore.supersedes_some {r : RecordStore} {e : DirEntry} (present : r.directory[k.idx] = some e) :
    r.supersedes k = [.state r.active e.addr 0 .replaced] := by
  rw [RecordStore.supersedes, present]

/-- The record that a save replaces lies below the new one. -/
theorem RecordStore.supersedes_spares {r : RecordStore} {a : Nat}
    (below : ∀ e, r.directory[k.idx] = some e → e.addr < a) (x : Nat) (from' : a ≤ x) :
    ∀ p ∈ r.supersedes k, p.Spares r.active x := by
  cases present : r.directory[k.idx] with
  | none => rw [RecordStore.supersedes_none present]; exact fun p mem => absurd mem List.not_mem_nil
  | some e =>
    rw [RecordStore.supersedes_some present]
    rintro p mem
    rw [List.mem_singleton.mp mem]
    exact fun _ => (lt_of_lt_of_le (below e present) from').ne

theorem State.saveEnds_verified {r : RecordStore} (done : s.rs.perform fault 0 (s.rs.accesses op) = (r, none)) :
    s.saveEnds op k fault =
      (State.finish op .ok (saveResults op k (r.recorded op k)) { s with rs := r.recorded op k }).raiseIf
        ((r.recorded op k).nearlyFull (some k)) := by
  rw [State.saveEnds, done]

theorem State.saveEnds_failed {r : RecordStore} {f : VerifyFailure}
    (failed : s.rs.perform fault 0 (s.rs.accesses op) = (r, some f)) :
    s.saveEnds op k fault =
      (State.finish op .writeFault []
        { s with rs := if f.step < saveSteps op.body then r else { r.recorded op k with full := true } }).raiseIf
          (some (.storeFault .writeFault f.bank f.addr (some k))) := by
  rw [State.saveEnds, failed]
  rfl

end

/-- Settles O51: the words of a save and of the record it replaces, when its accesses are made, fail or are cut off. -/
theorem saveCompletion : Obligations.SaveCompletion := by
  intro dt fault op k s released flies named save n old as named' free ends
  have runs : exec (.saveCompletion dt fault) s = .next ((s.elapse dt).saveEnds op k fault) :=
    exec_saveCompletion released flies named save
  have accesses : s.rs.accesses op = as := by
    rw [RecordStore.accesses_save s.rs named save]
    rfl
  refine ⟨fun r done => ⟨?verified, fun wf below => ?words⟩, fun r f failed => ?failed, fun cut idle wf blank replaces => ?cut⟩
  case verified =>
    rw [← accesses] at done
    exact ends_of_finish (runs.trans (congrArg Host.Outcome.next (State.saveEnds_verified done)))
  case failed =>
    rw [← accesses] at failed
    exact ends_of_finish (runs.trans (congrArg Host.Outcome.next (State.saveEnds_failed failed)))
  case words =>
    intro bank
    have spare := s.rs.supersedes_spares below
    have word {j : Nat} {w : Word}
        (here : ([keyWord k, BitVec.ofNat 16 n, crcWords op.body] ++ op.body)[j]? = some w) :
        bankRead bank (op.addr + 1 + j) = w := writeRecord_verified_word wf spare done here
    refine ⟨writeRecord_verified_state wf (spare _ le_rfl) done, word (j := 0) rfl, word (j := 1) rfl, word (j := 2) rfl,
      writeRecord_verified_body wf spare done, fun e present => ?_⟩
    have last : as = writeRecord s.rs.active op.addr (keyWord k) (BitVec.ofNat 16 n) (crcWords op.body) op.body ++
        [.state s.rs.active e.addr 0 .replaced] := congrArg (List.append _) (RecordStore.supersedes_some present)
    rw [last] at done
    exact RecordStore.perform_written wf (by exact ⟨rfl, rfl, rfl⟩) (fun p mem => absurd mem List.not_mem_nil) done
  case cut =>
    intro left state unreadable
    have below (e : DirEntry) (present : s.rs.directory[k.idx] = some e) := (replaces e present).1
    have spare := s.rs.supersedes_spares below
    have leftIs : left = (RecordStore.cutOff cut 0 (writeRecord s.rs.active op.addr (keyWord k) (BitVec.ofNat 16 n)
        (crcWords op.body) op.body ++ s.rs.supersedes k) s.rs).bank s.rs.active := by
      show (s.rs.cut cut).bank s.rs.active = _
      rw [RecordStore.cut, RecordStore.inProgress, idle, flies]
      exact congrArg (fun as => (RecordStore.cutOff cut 0 as s.rs).bank s.rs.active) accesses
    have first := blank op.addr le_rfl
    have states : state = bankRead left op.addr := rfl
    refine ⟨fun step => ?_, fun begun within => ?_, fun past => ?_, fun step => ?_, fun past => ?_, fun e present =>
      ⟨fun within => ?_, fun step => ?_⟩⟩
    · rw [states, leftIs]
      exact (writeRecord_cut_first wf first step).imp_right (Or.imp_right namesState_false.mp)
    · rw [states, leftIs, writeRecord_cut_inside wf first begun within]
    · rw [leftIs, writeRecord_cut_length wf (blank _ (by omega)) (spare _ (by omega)) past]
    · rw [states, leftIs]
      exact (writeRecord_cut_last wf first step).imp_right (Or.imp_right namesState_false.mp)
    · rw [states, leftIs, writeRecord_cut_past wf first (spare _ le_rfl) past]
    · rw [leftIs, writeRecord_cut_outside wf (below e present) within, (replaces e present).2]
    · have reads : bankRead left e.addr = StateUse.replaced.reading 0x00FF 0 (.cut cut) := by
        rw [leftIs, RecordStore.supersedes_some present,
          RecordStore.cutOff_past (n := 5 + n) (by rw [writeRecord_length, Nat.zero_add]) step.ge,
          RecordStore.cutOff_cut step, RecordStore.after_state (RecordStore.cutOff_bank_wf wf),
          RecordStore.cutOff_spared wf (writeRecord_spares (below e present)), (replaces e present).2]
      rw [reads]
      exact StateUse.reading_cut_replaced ..

end Sys2Proof.Machine
end

section
/-!
PROOFS. The ends of a deletion, an erasure of the store and a compaction, verified, failed or cut off (R122 to R124,
R126 to R128).
-/

namespace Sys2Proof.Machine

/-! ## Headers (R107, R108) -/

/-- The generation after is newer, and not the other way round. -/
theorem newer_nextGeneration (g : Word) : newer (nextGeneration g) g = true ∧ newer g (nextGeneration g) = false := by
  unfold nextGeneration
  split
  case isTrue last =>
    rw [last]
    decide
  case isFalse notLast =>
    have ahead : g + 1 - g = 1 := by rw [add_sub_cancel_left]
    have behind : g - (g + 1) = 0xFFFF := by
      rw [sub_add_cancel_left]
      decide
    rw [newer, newer, ahead, behind]
    decide

theorem BankId.other_ne (b : BankId) : b.other ≠ b := by cases b <;> decide

section
variable {r r' : RecordStore} {b : BankId}

theorem RecordStore.choice_active (chosen : r.choice = some b) : headerActive (r.bank b) = true := by
  unfold RecordStore.choice at chosen
  split at chosen
  case h_1 a c => cases b <;> assumption
  case h_2 a c =>
    cases chosen
    exact a
  case h_3 a c =>
    cases chosen
    exact c
  case h_4 => cases chosen

theorem RecordStore.choice_alone (active : headerActive (r.bank b) = true) (alone : headerActive (r.bank b.other) = false) :
    r.choice = some b := by
  cases b with
  | A | B =>
    simp only [BankId.other, RecordStore.bank] at active alone
    rw [RecordStore.choice, active, alone]

/-- A bank newer than the other is chosen. -/
theorem RecordStore.choice_newer (active : headerActive (r.bank b.other) = true)
    (newer' : newer (headerGeneration (r.bank b.other)) (headerGeneration (r.bank b)) = true ∧
      newer (headerGeneration (r.bank b)) (headerGeneration (r.bank b.other)) = false) : r.choice = some b.other := by
  cases former : headerActive (r.bank b) with
  | false =>
    refine RecordStore.choice_alone active ?_
    cases b <;> exact former
  | true =>
    obtain ⟨ahead, behind⟩ := newer'
    cases b with
    | A =>
      simp only [BankId.other, RecordStore.bank] at active former ahead behind
      rw [RecordStore.choice, active, former]
      simp only [ahead, BankId.other, if_true]
    | B =>
      simp only [BankId.other, RecordStore.bank] at active former ahead behind
      rw [RecordStore.choice, active, former]
      simp only [behind, BankId.other]
      rfl

/-- The choice stays while the other bank, where it reads ACTIVE, reads as before. -/
theorem RecordStore.choice_kept (chosen : r.choice = some b) (same : r'.bank b = r.bank b)
    (kept : headerActive (r'.bank b.other) = true →
      headerActive (r.bank b.other) = true ∧ headerGeneration (r.bank b.other) = headerGeneration (r'.bank b.other)) :
    r'.choice = some b := by
  cases now : headerActive (r'.bank b.other) with
  | false => exact RecordStore.choice_alone (same ▸ RecordStore.choice_active chosen) now
  | true =>
    obtain ⟨before, generation⟩ := kept now
    rw [← chosen]
    cases b with
    | A | B =>
      simp only [BankId.other, RecordStore.bank] at same now before generation
      rw [RecordStore.choice, RecordStore.choice, same, now, before, generation]

end

/-! ## Erasures -/

theorem RecordStore.after_erased {r : RecordStore} {b : BankId} : (r.after (.erase b) .made).bank b = [] :=
  RecordStore.after_same (b := b) rfl

/-- A header under erasure reads ACTIVE only as it was (R127). -/
theorem RecordStore.after_erase_cut {r : RecordStore} {b : BankId} {m : Mishap}
    (active : headerActive ((r.after (.erase b) (.cut m)).bank b) = true) :
    headerActive (r.bank b) = true ∧
      headerGeneration (r.bank b) = headerGeneration ((r.after (.erase b) (.cut m)).bank b) := by
  rw [RecordStore.after_same (b := b) rfl] at *
  exact keepHeader_active (Memory.wf_cellsOf _) active

/-! ## Deletion (R122) -/

section
variable {dt : Nat} {fault : Option Mishap} {op : Operation} {k : RecKey} {s : State} {r : RecordStore}
  {f : VerifyFailure}

theorem exec_deleteCompletion (released : s.held = false) (flies : s.rs.op = some op) (named : op.recKey = some k)
    (kind : op.kind = .deleteRecord) :
    exec (.deleteCompletion dt fault) s = .next ((s.elapse dt).deleteEnds op k fault) := by
  have flies : (s.elapse dt).rs.op = some op := flies
  show execDeleteCompletion dt fault s = _
  rw [execDeleteCompletion, State.take_released released]
  simp only [flies, named, kind, if_true]

theorem RecordStore.accesses_delete (r : RecordStore) {e : DirEntry} (named : op.recKey = some k)
    (kind : op.kind = .deleteRecord) (present : r.directory[k.idx] = some e) :
    r.accesses op = [.state r.active e.addr 0 .ordinary] := by
  rw [RecordStore.accesses, kind, named]
  dsimp only
  rw [RecordStore.entry, present]
  rfl

theorem State.deleteEnds_verified (done : s.rs.perform fault 0 (s.rs.accesses op) = (r, none)) :
    s.deleteEnds op k fault = State.finish op .ok [] { s with rs := r.setEntry k none } := by
  rw [State.deleteEnds, done]

theorem State.deleteEnds_failed (failed : s.rs.perform fault 0 (s.rs.accesses op) = (r, some f)) :
    s.deleteEnds op k fault =
      (State.finish op .writeFault [] { s with rs := { r with full := true } }).raiseIf
        (some (.storeFault .writeFault f.bank f.addr (some k))) := by
  rw [State.deleteEnds, failed]
  rfl

/-! ## Erasure of the store (R126) -/

theorem exec_eraseStoreCompletion (released : s.held = false) (flies : s.rs.op = some op) (kind : op.kind = .eraseStore) :
    exec (.eraseStoreCompletion dt fault) s = .next ((s.elapse dt).eraseEnds op fault) := by
  have flies : (s.elapse dt).rs.op = some op := flies
  show execEraseStoreCompletion dt fault s = _
  rw [execEraseStoreCompletion, State.take_released released]
  simp only [flies, kind, if_true]

theorem RecordStore.accesses_erase (r : RecordStore) (kind : op.kind = .eraseStore) :
    r.accesses op = [.erase .A, .erase .B, .program .A 0 0xC35A, .program .A 1 1, .state .A 2 0x00FF .ordinary] := by
  rw [RecordStore.accesses.eq_def, kind]
  rfl

theorem State.eraseEnds_verified (done : s.rs.perform fault 0 (s.rs.accesses op) = (r, none)) :
    s.eraseEnds op fault = State.finish op .ok [] { s with rs := r.emptied } := by
  rw [State.eraseEnds, done]

theorem State.eraseEnds_failed (failed : s.rs.perform fault 0 (s.rs.accesses op) = (r, some f)) :
    s.eraseEnds op fault =
      (State.finish op .writeFault [] { s with rs := r.unusable }).raiseIf
        (some (.storeFault .writeFault f.bank f.addr none)) := by
  rw [State.eraseEnds, failed]
  rfl

end

section
variable {cut : Mishap} {r : RecordStore}

/-- The fresh header of an erased bank A, cut off: it reads ACTIVE only with generation 1, and no record follows it. -/
theorem freshHeader_cut (blank : r.bankA = []) (past : 2 ≤ cut.step) :
    let left := (RecordStore.cutOff cut 2
      [.program .A 0 0xC35A, .program .A 1 1, .state .A 2 0x00FF .ordinary] r).bank .A
    (bankRead left 2 = 0x00FF → bankRead left 1 = 1) ∧ ∀ a, 8 ≤ a → bankRead left a = 0xFFFF := by
  intro left
  have empty : r.bank .A = [] := blank
  have wf : Memory.wf erased (r.bank .A) = true := by rw [empty]; rfl
  have unwritten (x : Nat) : bankRead (r.bank .A) x = 0xFFFF := by rw [empty]; rfl
  refine ⟨fun active => ?_, fun a record => ?_⟩
  · by_cases early : cut.step < 4
    · have state : bankRead left 2 = 0xFFFF := by
        show bankRead ((RecordStore.cutOff cut 2 ([.program .A 0 0xC35A, .program .A 1 1] ++
          [.state .A 2 0x00FF .ordinary]) r).bank .A) 2 = _
        rw [RecordStore.cutOff_within (as := [.program .A 0 0xC35A, .program .A 1 1]) past early, RecordStore.cutOff_spared wf (by simp [Access.Spares]), unwritten]
      rw [state] at active
      cases active
    · have reads : left = (RecordStore.cutOff cut 4 [.state .A 2 0x00FF .ordinary]
          ((r.after (.program .A 0 0xC35A) .made).after (.program .A 1 1) .made)).bank .A := by
        show (RecordStore.cutOff cut 2 _ r).bank .A = _
        rw [RecordStore.cutOff_made (by omega), RecordStore.cutOff_made (by omega)]
      rw [reads, RecordStore.cutOff_spared (RecordStore.after_wf (RecordStore.after_wf wf)) (by simp [Access.Spares]),
        RecordStore.after_program (RecordStore.after_wf wf), RecordStore.after_spared wf (by simp [Access.Spares]),
        unwritten]
      rfl
  · refine (RecordStore.cutOff_spared wf fun p mem => ?_).trans (unwritten a)
    simp only [List.mem_cons, List.not_mem_nil, or_false] at mem
    rcases mem with rfl | rfl | rfl <;> exact fun _ => by omega

end

/-! ## Compaction (R123, R124) -/

section
variable {dt : Nat} {fault : Option Mishap} {op : Operation} {s : State} {r : RecordStore} {f : VerifyFailure}

theorem exec_compactCompletion (released : s.held = false) (flies : s.rs.op = some op) (kind : op.kind = .compact) :
    exec (.compactCompletion dt fault) s = .next ((s.elapse dt).compactEnds op fault) := by
  have flies : (s.elapse dt).rs.op = some op := flies
  show execCompactCompletion dt fault s = _
  rw [execCompactCompletion, State.take_released released]
  simp only [flies, kind, if_true]

/-- The accesses of a compaction before the former bank is retired (R123 steps 1 to 4). -/
def RecordStore.compaction (r : RecordStore) : List Access :=
  [.erase r.active.other, .program r.active.other 0 0xC35A, .program r.active.other 1 (nextGeneration r.generation),
    .state r.active.other 2 0x0FFF .filling] ++
    copyRecords (r.bank r.active) r.active.other 8 r.liveByAddr ++ [.state r.active.other 2 0x00FF .filled]

theorem RecordStore.accesses_compact (r : RecordStore) (kind : op.kind = .compact) :
    r.accesses op = r.compaction ++ [.state r.active 2 0 .ordinary] := by
  rw [RecordStore.accesses.eq_def, kind]
  simp only [RecordStore.compaction, List.append_assoc, List.cons_append, List.nil_append]
  rfl

theorem State.compactEnds_verified (done : s.rs.perform fault 0 (s.rs.accesses op) = (r, none)) :
    s.compactEnds op fault = State.finish op .ok (compactResults r.compacted) { s with rs := r.compacted } := by
  rw [State.compactEnds, done]

theorem State.compactEnds_failed (failed : s.rs.perform fault 0 (s.rs.accesses op) = (r, some f)) :
    s.compactEnds op fault =
      (State.finish op .writeFault []
        { s with rs := if f.step + 1 < (s.rs.accesses op).length then r else r.compacted }).raiseIf
          (some (.storeFault .writeFault f.bank f.addr none)) := by
  rw [State.compactEnds, failed]
  rfl

theorem copyRecords_spares {src : Cells Word} {x b : BankId} {a y : Nat} {es : List (RecKey × DirEntry)} (below : y < a) :
    ∀ p ∈ copyRecords src x a es, p.Spares b y := by
  induction es generalizing a with
  | nil => exact fun p mem => absurd mem List.not_mem_nil
  | cons e es ih =>
    intro p mem
    rcases List.mem_append.mp mem with record | later
    · exact writeRecord_spares below p record
    · exact ih (by omega) p later

theorem copyRecords_bank {src : Cells Word} {x : BankId} {a : Nat} {es : List (RecKey × DirEntry)} {p : Access}
    (mem : p ∈ copyRecords src x a es) : p.bank = x := by
  induction es generalizing a with
  | nil => cases mem
  | cons e es ih =>
    rcases List.mem_append.mp mem with record | later
    · exact writeRecord_bank record
    · exact ih later

theorem RecordStore.compaction_bank {p : Access} (mem : p ∈ r.compaction) : p.bank = r.active.other := by
  simp only [RecordStore.compaction, List.mem_append, List.mem_cons, List.not_mem_nil, or_false] at mem
  rcases mem with ((rfl | rfl | rfl | rfl) | copied) | rfl
  · rfl
  · rfl
  · rfl
  · rfl
  · exact copyRecords_bank copied
  · rfl

end


section
variable {cut : Mishap} {r : RecordStore}

/-- The store when bank X is erased and has a FILLING header (R123 steps 1 and 2). -/
def RecordStore.filling (x : BankId) (g : Word) (r : RecordStore) : RecordStore :=
  (((r.after (.erase x) .made).after (.program x 0 0xC35A) .made).after (.program x 1 g) .made).after
    (.state x 2 0x0FFF .filling) .made

section
variable {x : BankId} {g : Word}

theorem RecordStore.erased_wf (x : BankId) : Memory.wf erased ((r.after (.erase x) .made).bank x) = true := by
  rw [RecordStore.after_erased]
  rfl

theorem RecordStore.erased_reads (x : BankId) (a : Nat) : bankRead ((r.after (.erase x) .made).bank x) a = 0xFFFF := by
  rw [RecordStore.after_erased]
  rfl

theorem RecordStore.filling_wf : Memory.wf erased ((r.filling x g).bank x) = true :=
  RecordStore.after_wf (RecordStore.after_wf (RecordStore.after_wf (RecordStore.erased_wf x)))

theorem RecordStore.filling_reads :
    bankRead ((r.filling x g).bank x) 0 = 0xC35A ∧ bankRead ((r.filling x g).bank x) 1 = g ∧
      bankRead ((r.filling x g).bank x) 2 = 0x0FFF := by
  have wf1 := RecordStore.erased_wf (r := r) x
  have wf2 := RecordStore.after_wf (a := .program x 0 0xC35A) (e := .made) wf1
  have wf3 := RecordStore.after_wf (a := .program x 1 g) (e := .made) wf2
  refine ⟨?_, ?_, ?_⟩
  · rw [RecordStore.filling, RecordStore.after_spared wf3 (by simp [Access.Spares]),
      RecordStore.after_spared wf2 (by simp [Access.Spares]), RecordStore.after_program wf1, RecordStore.erased_reads]
    rfl
  · rw [RecordStore.filling, RecordStore.after_spared wf3 (by simp [Access.Spares]), RecordStore.after_program wf2,
      RecordStore.after_spared wf1 (by simp [Access.Spares]), RecordStore.erased_reads]
    exact BitVec.allOnes_and
  · rw [RecordStore.filling, RecordStore.after_state wf3, RecordStore.after_spared wf2 (by simp [Access.Spares]),
      RecordStore.after_spared wf1 (by simp [Access.Spares]), RecordStore.erased_reads]
    rfl

/-- The accesses by which bank X is filled (R123 steps 1 to 4). -/
def fills (x : BankId) (g : Word) (copies : List Access) : List Access :=
  [.erase x, .program x 0 0xC35A, .program x 1 g, .state x 2 0x0FFF .filling] ++ copies ++ [.state x 2 0x00FF .filled]

theorem fills_cons (x : BankId) (g : Word) (copies : List Access) :
    fills x g copies =
      .erase x :: .program x 0 0xC35A :: .program x 1 g :: .state x 2 0x0FFF .filling ::
        (copies ++ [.state x 2 0x00FF .filled]) := rfl

theorem fills_length (x : BankId) (g : Word) (copies : List Access) : (fills x g copies).length = 5 + copies.length := by
  simp [fills]
  omega

theorem fills_begun {copies : List Access} (begun : 4 ≤ cut.step) :
    RecordStore.cutOff cut 0 (fills x g copies) r =
      RecordStore.cutOff cut 4 (copies ++ [.state x 2 0x00FF .filled]) (r.filling x g) := by
  rw [fills_cons, RecordStore.cutOff_made (by omega), RecordStore.cutOff_made (by omega),
    RecordStore.cutOff_made (by omega), RecordStore.cutOff_made (by omega)]
  rfl

theorem fills_past {copies : List Access} (past : 4 + copies.length ≤ cut.step) :
    RecordStore.cutOff cut 0 (fills x g copies) r =
      RecordStore.cutOff cut (4 + copies.length) [.state x 2 0x00FF .filled]
        (RecordStore.cutOff cut 4 copies (r.filling x g)) := by
  rw [fills_begun (by omega), RecordStore.cutOff_past rfl past]

/-- While bank X is filled, a cut leaves its header other than ACTIVE (R123 steps 1 to 4, R127). -/
theorem fills_cut {copies : List Access} (spare : ∀ p ∈ copies, p.Spares x 2) (begun : 1 ≤ cut.step)
    (within : cut.step < 5 + copies.length) :
    bankRead ((RecordStore.cutOff cut 0 (fills x g copies) r).bank x) 2 ≠ 0x00FF := by
  have wf1 := RecordStore.erased_wf (r := r) x
  have named {w : Word} (unreadable : namesState w = false) : w ≠ 0x00FF := (namesState_false.mp unreadable).2.2.1
  by_cases early : cut.step < 3
  · have state : bankRead ((RecordStore.cutOff cut 1 ([.program x 0 0xC35A, .program x 1 g] ++
        .state x 2 0x0FFF .filling :: (copies ++ [.state x 2 0x00FF .filled])) (r.after (.erase x) .made)).bank x) 2 =
          0xFFFF := by
      rw [RecordStore.cutOff_within (as := [.program x 0 0xC35A, .program x 1 g]) begun early,
        RecordStore.cutOff_spared wf1 (by simp [Access.Spares]), RecordStore.erased_reads]
    rw [fills_cons, RecordStore.cutOff_made begun]
    exact fun active => absurd (state.symm.trans active) (by decide)
  by_cases header : cut.step = 3
  · have wf2 := RecordStore.after_wf (a := .program x 0 0xC35A) (e := .made) wf1
    rw [fills_cons, RecordStore.cutOff_made begun, RecordStore.cutOff_made (by omega), RecordStore.cutOff_made (by omega),
      RecordStore.cutOff_cut header, RecordStore.after_state (RecordStore.after_wf wf2),
      RecordStore.after_spared wf2 (by simp [Access.Spares]), RecordStore.after_spared wf1 (by simp [Access.Spares]),
      RecordStore.erased_reads]
    rcases StateUse.reading_cut_filling 0xFFFF 0x0FFF cut with old | new | unreadable
    · exact fun active => absurd (old.symm.trans active) (by decide)
    · exact fun active => absurd (new.symm.trans active) (by decide)
    · exact named unreadable
  obtain ⟨-, -, state⟩ := RecordStore.filling_reads (r := r) (x := x) (g := g)
  by_cases copying : cut.step < 4 + copies.length
  · rw [fills_begun (by omega), RecordStore.cutOff_within (by omega) copying,
      RecordStore.cutOff_spared RecordStore.filling_wf spare, state]
    decide
  · rw [fills_past (by omega), RecordStore.cutOff_cut (by omega),
      RecordStore.after_state (RecordStore.cutOff_bank_wf RecordStore.filling_wf),
      RecordStore.cutOff_spared RecordStore.filling_wf spare, state]
    rcases StateUse.reading_cut_filled 0x0FFF 0x00FF cut with old | unreadable
    · exact fun active => absurd (old.symm.trans active) (by decide)
    · exact named unreadable

/-- Bank X once it is filled: an ACTIVE header of the next generation (R123 step 4). -/
theorem fills_made {copies : List Access} (spare : ∀ p ∈ copies, ∀ y < 8, p.Spares x y)
    (past : 5 + copies.length ≤ cut.step) :
    headerActive ((RecordStore.cutOff cut 0 (fills x g copies) r).bank x) = true ∧
      headerGeneration ((RecordStore.cutOff cut 0 (fills x g copies) r).bank x) = g := by
  obtain ⟨marked, generation, state⟩ := RecordStore.filling_reads (r := r) (x := x) (g := g)
  have wf := RecordStore.cutOff_bank_wf (cut := cut) (i := 4) (as := copies)
    (RecordStore.filling_wf (r := r) (x := x) (g := g))
  have reads (y : Nat) (header : y < 8) :=
    RecordStore.cutOff_spared (cut := cut) (i := 4) (RecordStore.filling_wf (r := r) (x := x) (g := g))
      fun p mem => spare p mem y header
  rw [fills_past (by omega), RecordStore.cutOff_made (by omega), headerActive_iff, headerGeneration]
  show (bankRead ((RecordStore.after _ _ _).bank x) 0 = _ ∧ bankRead ((RecordStore.after _ _ _).bank x) 2 = _) ∧
    bankRead ((RecordStore.after _ _ _).bank x) 1 = _
  rw [RecordStore.after_spared wf (by simp [Access.Spares]), RecordStore.after_state wf,
    RecordStore.after_spared wf (by simp [Access.Spares]), reads 0 (by decide), reads 1 (by decide), reads 2 (by decide),
    marked, generation, state]
  exact ⟨⟨rfl, rfl⟩, rfl⟩

end

end

/-- A compaction cut off before the former bank is retired: that bank is the one the load chooses (R123, R127). -/
theorem compaction_cut_before {cut : Mishap} {r : RecordStore} (chosen : r.choice = some r.active)
    (within : cut.step < r.compaction.length) :
    (RecordStore.cutOff cut 0 (r.compaction ++ [.state r.active 2 0 .ordinary]) r).bank r.active = r.bank r.active ∧
      (RecordStore.cutOff cut 0 (r.compaction ++ [.state r.active 2 0 .ordinary]) r).choice = some r.active := by
  rw [RecordStore.cutOff_within (Nat.zero_le _) (by rwa [Nat.zero_add])]
  have same : (RecordStore.cutOff cut 0 r.compaction r).bank r.active = r.bank r.active :=
    RecordStore.cutOff_bank cut 0 r.compaction r fun p mem =>
      RecordStore.compaction_bank mem ▸ BankId.other_ne r.active
  refine ⟨same, RecordStore.choice_kept chosen same fun active => ?_⟩
  by_cases begun : 1 ≤ cut.step
  · have inactive := fills_cut (x := r.active.other) (g := nextGeneration r.generation) (r := r)
      (copies := copyRecords (r.bank r.active) r.active.other 8 r.liveByAddr) (copyRecords_spares (by decide)) begun
      (fills_length .. ▸ within)
    exact absurd (headerActive_iff.mp active).2 inactive
  · rw [show RecordStore.cutOff cut 0 r.compaction r = r.after (.erase r.active.other) (.cut cut) from
      RecordStore.cutOff_cut (by omega)] at *
    exact RecordStore.after_erase_cut active

/-- A compaction cut off when the former bank is being or has been retired: bank X is the one the load chooses. -/
theorem compaction_cut_after {cut : Mishap} {r : RecordStore} (wfA : Memory.wf erased r.bankA = true)
    (wfB : Memory.wf erased r.bankB = true) (generation : bankRead (r.bank r.active) 1 = r.generation)
    (past : r.compaction.length ≤ cut.step) :
    (RecordStore.cutOff cut 0 (r.compaction ++ [.state r.active 2 0 .ordinary]) r).choice = some r.active.other := by
  have wf : Memory.wf erased (r.bank r.active) = true := by cases r.active <;> assumption
  rw [RecordStore.cutOff_past (Nat.zero_add _) past]
  obtain ⟨active, next⟩ := fills_made (cut := cut) (x := r.active.other) (g := nextGeneration r.generation) (r := r)
    (copies := copyRecords (r.bank r.active) r.active.other 8 r.liveByAddr)
    (fun p mem y header => copyRecords_spares header p mem)
    (fills_length .. ▸ past)
  have same : (RecordStore.cutOff cut 0 r.compaction r).bank r.active = r.bank r.active :=
    RecordStore.cutOff_bank cut 0 r.compaction r fun p mem =>
      RecordStore.compaction_bank mem ▸ BankId.other_ne r.active
  have kept : (RecordStore.cutOff cut r.compaction.length [.state r.active 2 0 .ordinary]
      (RecordStore.cutOff cut 0 r.compaction r)).bank r.active.other =
        (RecordStore.cutOff cut 0 r.compaction r).bank r.active.other :=
    RecordStore.cutOff_bank _ _ _ _ fun p mem => by
      rw [List.mem_singleton.mp mem]
      exact (BankId.other_ne r.active).symm
  have former : headerGeneration ((RecordStore.cutOff cut r.compaction.length [.state r.active 2 0 .ordinary]
      (RecordStore.cutOff cut 0 r.compaction r)).bank r.active) = r.generation := by
    rw [headerGeneration, RecordStore.cutOff_spared (same ▸ wf) (by simp [Access.Spares]), same, generation]
  refine RecordStore.choice_newer (kept ▸ active) ?_
  rw [kept, former, show headerGeneration ((RecordStore.cutOff cut 0 r.compaction r).bank r.active.other) = _ from next]
  exact newer_nextGeneration r.generation

/-- Settles O53: each operation by its accesses, made, failed or cut off. -/
theorem deleteEraseAndCompactCompletions : Obligations.DeleteEraseAndCompactCompletions := by
  intro dt fault op s released flies ends active failed
  refine ⟨fun k e kind named present => ?delete, fun kind => ?erase, fun kind => ?compact⟩
  case delete =>
    intro as
    have accesses : s.rs.accesses op = as := RecordStore.accesses_delete s.rs named kind present
    have runs : exec (.deleteCompletion dt fault) s = .next ((s.elapse dt).deleteEnds op k fault) :=
      exec_deleteCompletion released flies named kind
    refine ⟨fun r done => ?_, fun r f fails => ?_, fun cut idle wf valid => ?_⟩
    · rw [← accesses] at done
      exact ends_of_finish (notice := none) (runs.trans (congrArg Host.Outcome.next (State.deleteEnds_verified done)))
    · rw [← accesses] at fails
      exact ends_of_finish (runs.trans (congrArg Host.Outcome.next (State.deleteEnds_failed fails)))
    · intro w
      have cuts : s.rs.cut cut = RecordStore.cutOff cut 0 as s.rs := by
        rw [RecordStore.cut, RecordStore.inProgress, idle, flies]
        exact congrArg (RecordStore.cutOff cut 0 · s.rs) accesses
      refine ⟨fun step => ?_, fun past => ?_⟩
      · have reads : w = StateUse.ordinary.reading 0x00FF 0 (.cut cut) := by
          show bankRead ((s.rs.cut cut).bank s.rs.active) e.addr = _
          rw [cuts, RecordStore.cutOff_cut step, RecordStore.after_state wf, valid]
        rw [reads]
        exact (StateUse.reading_cut_ordinary ..).imp_right (Or.imp_right fun unreadable =>
          ⟨(namesState_false.mp unreadable).1, (namesState_false.mp unreadable).2.1⟩)
      · show bankRead ((s.rs.cut cut).bank s.rs.active) e.addr = _
        rw [cuts, RecordStore.cutOff_made past]
        show bankRead ((s.rs.after _ .made).bank s.rs.active) e.addr = _
        rw [RecordStore.after_state wf, valid]
        rfl
  case erase =>
    intro as empty
    have accesses : s.rs.accesses op = as := RecordStore.accesses_erase s.rs kind
    have runs : exec (.eraseStoreCompletion dt fault) s = .next ((s.elapse dt).eraseEnds op fault) :=
      exec_eraseStoreCompletion released flies kind
    refine ⟨fun r done => ?_, fun r f fails => ?_, fun cut idle => ?_⟩
    · rw [← accesses] at done
      exact ends_of_finish (notice := none) (runs.trans (congrArg Host.Outcome.next (State.eraseEnds_verified done)))
    · rw [← accesses] at fails
      exact ends_of_finish (runs.trans (congrArg Host.Outcome.next (State.eraseEnds_failed fails)))
    · intro left kept
      have cuts : left = RecordStore.cutOff cut 0 as s.rs := by
        show s.rs.cut cut = _
        rw [RecordStore.cut, RecordStore.inProgress, idle, flies]
        exact congrArg (RecordStore.cutOff cut 0 · s.rs) accesses
      have stays (before after : Cells Word)
          (header : headerActive after = true → headerActive before = true ∧ headerGeneration before = headerGeneration after) :
          kept before after := fun now => by
        obtain ⟨was, generation⟩ := header (headerActive_iff.mpr now)
        exact ⟨headerActive_iff.mp was, generation.symm⟩
      rw [cuts]
      refine ⟨fun step => ?_, fun step => ?_, fun past => ?_⟩
      · rw [RecordStore.cutOff_cut step]
        exact ⟨RecordStore.after_other (b := .B) (by decide), stays _ _ (RecordStore.after_erase_cut (b := .A))⟩
      · rw [RecordStore.cutOff_made (by omega), RecordStore.cutOff_cut step]
        exact ⟨(RecordStore.after_other (b := .A) (by decide)).trans RecordStore.after_erased,
          stays _ _ (RecordStore.after_erase_cut (b := .B))⟩
      · rw [RecordStore.cutOff_made (by omega), RecordStore.cutOff_made (by omega)]
        have blankA : ((s.rs.after (.erase .A) .made).after (.erase .B) .made).bankA = [] :=
          (RecordStore.after_other (b := .A) (by decide)).trans RecordStore.after_erased
        obtain ⟨generation, rest⟩ := freshHeader_cut blankA past
        refine ⟨(RecordStore.cutOff_bank (b := .B) _ _ _ _ fun p mem => ?_).trans RecordStore.after_erased,
          fun now => ⟨generation now.2, rest⟩⟩
        simp only [List.mem_cons, List.not_mem_nil, or_false] at mem
        rcases mem with rfl | rfl | rfl <;> decide
  case compact =>
    intro x g body as moved append switched
    have bodyIs : s.rs.compaction = body := rfl
    have accesses : s.rs.accesses op = as := RecordStore.accesses_compact s.rs kind
    have runs : exec (.compactCompletion dt fault) s = .next ((s.elapse dt).compactEnds op fault) :=
      exec_compactCompletion released flies kind
    have switches {r : RecordStore} {v : Option VerifyFailure} (performed : s.rs.perform fault 0 as = (r, v)) :
        r.compacted = switched r := by
      obtain ⟨a, b, banks⟩ := RecordStore.perform_eq fault 0 as s.rs
      rw [performed] at banks
      change r = _ at banks
      rw [banks]
      rfl
    refine ⟨fun r done => ?_, fun r f fails => ?_, fun cut idle wfA wfB chosen generation => ?_⟩
    · have ended := State.compactEnds_verified (s := s.elapse dt) (op := op) (accesses ▸ done)
      rw [switches done] at ended
      exact ends_of_finish (notice := none) (runs.trans (congrArg Host.Outcome.next ended))
    · have ended := State.compactEnds_failed (s := s.elapse dt) (op := op) (accesses ▸ fails)
      have steps : f.step + 1 < ((s.elapse dt).rs.accesses op).length ↔ f.step < body.length := by
        rw [show ((s.elapse dt).rs.accesses op).length = body.length + 1 from congrArg List.length accesses |>.trans (by simp [as])]
        omega
      rw [switches fails] at ended
      simp only [steps] at ended
      exact ends_of_finish (runs.trans (congrArg Host.Outcome.next ended))
    · intro left
      have cuts : left = RecordStore.cutOff cut 0 as s.rs := by
        show s.rs.cut cut = _
        rw [RecordStore.cut, RecordStore.inProgress, idle, flies]
        exact congrArg (RecordStore.cutOff cut 0 · s.rs) accesses
      rw [cuts]
      exact ⟨fun within => compaction_cut_before chosen within, fun past => compaction_cut_after wfA wfB generation past⟩

end Sys2Proof.Machine
end

section
/-!
PROOFS. Validation of a tile table (R10 to R14) and the image check (R15).
-/

namespace Sys2Proof.Machine

/-! ## The used slots of a table -/

theorem mem_usedFrom {i : Nat} {l : List (Option Tile)} {e : Nat × Tile} :
    e ∈ usedFrom i l ↔ ∃ j, e.1 = i + j ∧ l[j]? = some (some e.2) := by
  induction l generalizing i with
  | nil => simp [usedFrom]
  | cons o l ih =>
    have later : e ∈ usedFrom (i + 1) l ↔ ∃ j, e.1 = i + (j + 1) ∧ (o :: l)[j + 1]? = some (some e.2) := by
      rw [ih]
      exact exists_congr fun j => and_congr (by omega) Iff.rfl
    have split : (∃ j, e.1 = i + j ∧ (o :: l)[j]? = some (some e.2)) ↔
        (e.1 = i ∧ o = some e.2) ∨ e ∈ usedFrom (i + 1) l := by
      rw [later, ← Nat.or_exists_add_one]
      simp
    rw [split]
    cases o with
    | none => simp [usedFrom]
    | some t =>
      rw [usedFrom, List.mem_cons]
      exact or_congr ⟨fun same => by simp [same], fun ⟨slot, tile⟩ => Prod.ext slot (Option.some.inj tile).symm⟩ Iff.rfl

theorem mem_used {t : TileTable} {e : Nat × Tile} : e ∈ used t ↔ ∃ i : Fin 32, e.1 = i.1 ∧ t[i] = some e.2 := by
  rw [used, mem_usedFrom]
  constructor
  · rintro ⟨j, slot, tile⟩
    obtain ⟨within, here⟩ := List.getElem?_eq_some_iff.mp tile
    exact ⟨⟨j, by simpa using within⟩, by simpa using slot, by simpa using here⟩
  · rintro ⟨i, slot, tile⟩
    exact ⟨i.1, by simpa using slot, by simpa using tile⟩

/-- The used slots stand in ascending order. -/
theorem usedFrom_sorted (i : Nat) (l : List (Option Tile)) : (usedFrom i l).Pairwise fun a b => a.1 < b.1 := by
  induction l generalizing i with
  | nil => exact .nil
  | cons o l ih =>
    cases o with
    | none => exact ih (i + 1)
    | some t =>
      refine List.pairwise_cons.mpr ⟨fun e later => ?_, ih (i + 1)⟩
      obtain ⟨j, slot, -⟩ := mem_usedFrom.mp later
      show i < e.1
      omega

/-! ## The four checks -/

section
variable {ts : Slotted} {e : Nat × Tile}

theorem rangeFails_iff : rangeFails e.2 = true ↔ 8192 < e.2.x + e.2.w ∨ 8192 < e.2.y + e.2.h := by
  rw [rangeFails, Bool.or_eq_true, decide_eq_true_eq, decide_eq_true_eq]
  rfl

theorem duplicated_iff :
    duplicated ts e = true ↔ ∃ f ∈ ts, f.1 ≠ e.1 ∧ f.2.port = e.2.port ∧ f.2.pos = e.2.pos := by
  simp only [duplicated, List.any_eq_true, Bool.and_eq_true, bne_iff_ne, beq_iff_eq, and_assoc]

theorem gapped_iff : gapped ts e = true ↔ (ts.filter fun f => f.2.port == e.2.port).length ≤ e.2.pos.1 := decide_eq_true_iff

theorem portLoad_eq (ts : Slotted) (p : Fin 8) (y : Nat) :
    portLoad ts p y =
      ((ts.filter fun f => decide (f.2.port = p ∧ f.2.y ≤ y ∧ y < f.2.y + f.2.h)).map fun f => f.2.w).sum := by
  simp only [portLoad, Tile.coversLine, Bool.decide_and]
  rfl

theorem overBudget_iff :
    overBudget ts e = true ↔ ∃ y, e.2.y ≤ y ∧ y < e.2.y + e.2.h ∧ 1024 < portLoad ts e.2.port y := by
  simp only [overBudget, List.any_eq_true, List.mem_range, decide_eq_true_eq]
  constructor
  · rintro ⟨k, line, exceeds⟩
    exact ⟨e.2.y + k, by omega, by omega, exceeds⟩
  · rintro ⟨y, above, below, exceeds⟩
    exact ⟨y - e.2.y, by omega, by rwa [Nat.add_sub_cancel' above]⟩

variable {bad : Nat × Tile → Bool}

theorem firstSlot_eq_none : firstSlot ts bad = none ↔ ∀ e ∈ ts, ¬bad e = true := by
  rw [firstSlot, Option.map_eq_none_iff, List.find?_eq_none]

/-- In ascending order the first slot a check fails for is the lowest. -/
theorem firstSlot_lowest (sorted : ts.Pairwise fun a b => a.1 < b.1) (tile : e ∈ ts) (fails : bad e = true)
    (least : ∀ f ∈ ts, bad f = true → e.1 ≤ f.1) : firstSlot ts bad = some e.1 := by
  obtain ⟨before, after, rfl⟩ := List.append_of_mem tile
  refine firstSlot_first (fun f earlier => ?_) fails
  have below : f.1 < e.1 := (List.pairwise_append.mp sorted).2.2 f earlier e (List.mem_cons_self ..)
  by_contra failing
  exact absurd (least f (List.mem_append_left _ earlier) (Bool.not_eq_false _ ▸ failing)) (by omega)

theorem validateTiles_ok :
    validateTiles ts = .ok ↔
      firstSlot ts (fun e => rangeFails e.2) = none ∧ firstSlot ts (duplicated ts) = none ∧
        firstSlot ts (gapped ts) = none ∧ firstSlot ts (overBudget ts) = none := by
  rw [validateTiles]
  cases firstSlot ts fun e => rangeFails e.2 with
  | some => simp
  | none =>
    cases firstSlot ts (duplicated ts) with
    | some => simp
    | none =>
      cases firstSlot ts (gapped ts) with
      | some => simp
      | none => cases firstSlot ts (overBudget ts) <;> simp

section
variable {n : Nat}

theorem validateTiles_range (fails : firstSlot ts (fun e => rangeFails e.2) = some n) :
    validateTiles ts = .failed .range n := by
  rw [validateTiles, fails]

theorem validateTiles_twice (inRange : firstSlot ts (fun e => rangeFails e.2) = none)
    (fails : firstSlot ts (duplicated ts) = some n) : validateTiles ts = .failed .duplicatePosition n := by
  rw [validateTiles, inRange]
  dsimp only
  rw [fails]

theorem validateTiles_gap (inRange : firstSlot ts (fun e => rangeFails e.2) = none)
    (once : firstSlot ts (duplicated ts) = none) (fails : firstSlot ts (gapped ts) = some n) :
    validateTiles ts = .failed .gap n := by
  rw [validateTiles, inRange]
  dsimp only
  rw [once]
  dsimp only
  rw [fails]

theorem validateTiles_budget (inRange : firstSlot ts (fun e => rangeFails e.2) = none)
    (once : firstSlot ts (duplicated ts) = none) (full : firstSlot ts (gapped ts) = none)
    (fails : firstSlot ts (overBudget ts) = some n) : validateTiles ts = .failed .portBudget n := by
  rw [validateTiles, inRange]
  dsimp only
  rw [once]
  dsimp only
  rw [full]
  dsimp only
  rw [fails]

end

end

/-! ## The entries of an image (R15, R207) -/

/-- A word of an entry, as a number. -/
def imageField (rest : List Word) (j i : Nat) : Nat := (rest.getD (6 * j + i) 0).toNat

/-- An entry of an image: its slot number, and its tile where every field is in range. -/
def entryAt (rest : List Word) (j : Nat) : Nat × Option Tile :=
  (imageField rest j 0, tileOfWords (rest.getD (6 * j + 1) 0) (rest.getD (6 * j + 2) 0) (rest.getD (6 * j + 3) 0)
    (rest.getD (6 * j + 4) 0) (rest.getD (6 * j + 5) 0))

theorem imageEntries_eq (rest : List Word) : imageEntries rest = (List.range (rest.length / 6)).map (entryAt rest) := by
  induction rest using imageEntries.induct with
  | case1 s pp x y wh m rest ih =>
    have count : (s :: pp :: x :: y :: wh :: m :: rest).length / 6 = rest.length / 6 + 1 := by
      simp only [List.length_cons]
      omega
    have later (j : Nat) : entryAt (s :: pp :: x :: y :: wh :: m :: rest) (j + 1) = entryAt rest j := by
      simp only [entryAt, imageField, Nat.mul_add_one, Nat.add_right_comm _ 6, Nat.add_zero, List.getD_cons_succ]
    rw [imageEntries, ih, count, List.range_succ_eq_map, List.map_cons, List.map_map]
    exact congrArg₂ List.cons rfl (List.map_congr_left fun j _ => (later j).symm)
  | case2 rest short =>
    match rest, short with
    | [], _ | [_], _ | [_, _], _ | [_, _, _], _ | [_, _, _, _], _ | [_, _, _, _, _], _ => simp [imageEntries]
    | s :: pp :: x :: y :: wh :: m :: rest, short => exact absurd rfl (short s pp x y wh m rest)

/-- Every field of an entry is in range (R1, R207). -/
def EntryInRange (rest : List Word) (j : Nat) : Prop :=
  imageField rest j 1 / 256 < 8 ∧ imageField rest j 1 % 256 < 8 ∧ imageField rest j 2 < 8192 ∧
    imageField rest j 3 < 8192 ∧ imageField rest j 5 / 2048 % 8 = 0

theorem fin?_of_lt {n v : Nat} (small : v < n) : fin? n v = some ⟨v, small⟩ := dif_pos small

theorem fin?_of_not_lt {n v : Nat} (large : ¬v < n) : fin? n v = none := dif_neg large

section
variable {pp x y wh m : Word}

theorem tileOfWords_in
    (inRange : pp.toNat / 256 < 8 ∧ pp.toNat % 256 < 8 ∧ x.toNat < 8192 ∧ y.toNat < 8192 ∧ m.toNat / 2048 % 8 = 0) :
    ∃ e : Tile, tileOfWords pp x y wh m = some e ∧
      e.port.1 = pp.toNat / 256 ∧ e.pos.1 = pp.toNat % 256 ∧ e.x = x.toNat ∧ e.y = y.toNat ∧
      e.w = wh.toNat / 256 + 1 ∧ e.h = wh.toNat % 256 + 1 ∧
      e.mirrorH = decide (m.toNat / 32768 = 1) ∧ e.mirrorV = decide (m.toNat / 16384 % 2 = 1) ∧
      e.table.1 = m.toNat / 256 % 8 ∧ e.bright = m.toNat % 256 := by
  obtain ⟨port, pos, left, top, reserved⟩ := inRange
  have rest : (x.toNat < 8192 && y.toNat < 8192 && bitsOf m 13 11 == 0) = true := by
    rw [Bool.and_eq_true, Bool.and_eq_true, decide_eq_true_eq, decide_eq_true_eq, beq_iff_eq]
    exact ⟨⟨left, top⟩, reserved⟩
  have mirrorH : (bitsOf m 15 15 == 1) = decide (m.toNat / 32768 = 1) := by
    have := m.isLt
    refine decide_eq_decide.mpr ?_
    show m.toNat / 32768 % 2 = 1 ↔ _
    omega
  rw [tileOfWords, fin?_of_lt (show highByte pp < 8 from port), fin?_of_lt (show lowByte pp < 8 from pos)]
  dsimp only
  rw [if_pos rest, fin?_of_lt (show bitsOf m 10 8 < 8 from Nat.mod_lt _ (by decide))]
  exact ⟨_, rfl, rfl, rfl, rfl, rfl, rfl, rfl, mirrorH, rfl, rfl, rfl⟩

theorem tileOfWords_out
    (outside : ¬(pp.toNat / 256 < 8 ∧ pp.toNat % 256 < 8 ∧ x.toNat < 8192 ∧ y.toNat < 8192 ∧ m.toNat / 2048 % 8 = 0)) :
    tileOfWords pp x y wh m = none := by
  by_cases port : highByte pp < 8
  · by_cases pos : lowByte pp < 8
    · rw [tileOfWords, fin?_of_lt port, fin?_of_lt pos]
      dsimp only
      refine if_neg fun rest => outside ⟨port, pos, ?_⟩
      rw [Bool.and_eq_true, Bool.and_eq_true, decide_eq_true_eq, decide_eq_true_eq, beq_iff_eq] at rest
      exact ⟨rest.1.1, rest.1.2, rest.2⟩
    · rw [tileOfWords, fin?_of_lt port, fin?_of_not_lt pos]
  · rw [tileOfWords, fin?_of_not_lt port]

end

section
variable {rest : List Word} {j k m : Nat}

theorem entryAt_in (inRange : EntryInRange rest j) :
    ∃ e : Tile, (entryAt rest j).2 = some e ∧
      e.port.1 = imageField rest j 1 / 256 ∧ e.pos.1 = imageField rest j 1 % 256 ∧ e.x = imageField rest j 2 ∧
      e.y = imageField rest j 3 ∧ e.w = imageField rest j 4 / 256 + 1 ∧ e.h = imageField rest j 4 % 256 + 1 ∧
      e.mirrorH = decide (imageField rest j 5 / 32768 = 1) ∧
      e.mirrorV = decide (imageField rest j 5 / 16384 % 2 = 1) ∧
      e.table.1 = imageField rest j 5 / 256 % 8 ∧ e.bright = imageField rest j 5 % 256 := tileOfWords_in inRange

theorem entryAt_isNone : (entryAt rest j).2.isNone = true ↔ ¬EntryInRange rest j := by
  constructor
  · intro absent inRange
    obtain ⟨e, present, -⟩ := entryAt_in inRange
    rw [present] at absent
    cases absent
  · exact fun outside => Option.isNone_iff_eq_none.mpr (tileOfWords_out outside)

/-- An entry of a slot that another entry has too. -/
theorem twice_iff (within : j < m) :
    1 < (((List.range m).map (entryAt rest)).filter fun f => f.1 == imageField rest j 0).length ↔
      ∃ k, k < m ∧ k ≠ j ∧ imageField rest k 0 = imageField rest j 0 := by
  have count : (((List.range m).map (entryAt rest)).filter fun f => f.1 == imageField rest j 0).length =
      ((Finset.range m).filter fun k => imageField rest k 0 = imageField rest j 0).card := by
    rw [List.filter_map, List.length_map]
    rfl
  rw [count]
  constructor
  · intro several
    obtain ⟨k, same, other⟩ := Finset.exists_mem_ne several j
    obtain ⟨small, equal⟩ := Finset.mem_filter.mp same
    exact ⟨k, Finset.mem_range.mp small, other, equal⟩
  · rintro ⟨k, small, other, equal⟩
    exact Finset.one_lt_card.mpr ⟨k, Finset.mem_filter.mpr ⟨Finset.mem_range.mpr small, equal⟩, j,
      Finset.mem_filter.mpr ⟨Finset.mem_range.mpr within, rfl⟩, other⟩

/-- The number of entries looked at: those the used count names, as far as they stand whole in the record (log 24). -/
def entryCount (n : Word) (rest : List Word) : Nat := min n.toNat (rest.length / 6)

theorem imageEntries_taken (n : Word) (rest : List Word) :
    (imageEntries rest).take n.toNat = (List.range (entryCount n rest)).map (entryAt rest) := by
  rw [imageEntries_eq, ← List.map_take, List.take_range]
  rfl

/-- An entry that is reported: its slot is repeated or a field out of range. -/
def BadEntry (rest : List Word) (m j : Nat) : Prop :=
  j < m ∧ imageField rest j 0 < 32 ∧
    (¬EntryInRange rest j ∨ ∃ k, k < m ∧ k ≠ j ∧ imageField rest k 0 = imageField rest j 0)

/-- The slots that the image check reports of some entries. -/
def badSlots (es : List (Nat × Option Tile)) : List Nat :=
  (es.filter fun e =>
    decide (e.1 < 32) && (e.2.isNone || decide (1 < (es.filter fun f => f.1 == e.1).length))).map Prod.fst

theorem mem_badSlots {a : Nat} :
    a ∈ badSlots ((List.range m).map (entryAt rest)) ↔ ∃ j, BadEntry rest m j ∧ imageField rest j 0 = a := by
  have bad {j : Nat} (within : j < m) : (decide ((entryAt rest j).1 < 32) && ((entryAt rest j).2.isNone ||
      decide (1 < (((List.range m).map (entryAt rest)).filter fun f => f.1 == (entryAt rest j).1).length))) = true ↔
        imageField rest j 0 < 32 ∧
          (¬EntryInRange rest j ∨ ∃ k, k < m ∧ k ≠ j ∧ imageField rest k 0 = imageField rest j 0) := by
    rw [Bool.and_eq_true, Bool.or_eq_true, entryAt_isNone, decide_eq_true_eq, decide_eq_true_eq]
    exact and_congr Iff.rfl (or_congr Iff.rfl (twice_iff within))
  simp only [badSlots, List.mem_map, List.mem_filter, List.mem_range]
  constructor
  · rintro ⟨e, ⟨⟨j, within, rfl⟩, fails⟩, rfl⟩
    exact ⟨j, ⟨within, (bad within).mp fails⟩, rfl⟩
  · rintro ⟨j, ⟨within, fails⟩, rfl⟩
    exact ⟨_, ⟨⟨j, within, rfl⟩, (bad within).mpr fails⟩, rfl⟩

theorem badSlots_empty : badSlots ((List.range m).map (entryAt rest)) = [] ↔ ∀ j, ¬BadEntry rest m j := by
  rw [List.eq_nil_iff_forall_not_mem]
  constructor
  · exact fun nothing j bad => nothing _ (mem_badSlots.mpr ⟨j, bad, rfl⟩)
  · rintro good a reported
    obtain ⟨j, bad, -⟩ := mem_badSlots.mp reported
    exact good j bad

end

theorem leastOr0_eq (l : List Nat) : leastOr0 l = l.min?.getD 0 := by
  cases l with
  | nil => rfl
  | cons n l => rw [leastOr0, List.min?_cons', Option.getD_some]

theorem leastOr0_least {l : List Nat} {a : Nat} (mem : a ∈ l) (least : ∀ b ∈ l, a ≤ b) : leastOr0 l = a := by
  rw [leastOr0_eq, List.min?_eq_some_iff.mpr ⟨mem, least⟩, Option.getD_some]

/-! ## The table of an image's entries -/

theorem tableOfEntries_range (rest : List Word) (m : Nat) (i : Fin 32) :
    ((∀ j, j < m → imageField rest j 0 ≠ i.1) → (tableOfEntries ((List.range m).map (entryAt rest)))[i] = none) ∧
      ∀ j, j < m → imageField rest j 0 = i.1 → (∀ k, j < k → k < m → imageField rest k 0 ≠ i.1) →
        (tableOfEntries ((List.range m).map (entryAt rest)))[i] = (entryAt rest j).2 := by
  have last (m : Nat) : tableOfEntries ((List.range (m + 1)).map (entryAt rest)) =
      match fin? 32 (imageField rest m 0) with
      | some s => upd (tableOfEntries ((List.range m).map (entryAt rest))) s (entryAt rest m).2
      | none => tableOfEntries ((List.range m).map (entryAt rest)) := by
    rw [tableOfEntries, List.range_succ, List.map_append, List.foldl_append]
    rfl
  have hit {m : Nat} (slot : imageField rest m 0 = i.1) :
      (tableOfEntries ((List.range (m + 1)).map (entryAt rest)))[i] = (entryAt rest m).2 := by
    rw [last, slot, fin?_of_lt i.isLt]
    exact upd_same ..
  have miss {m : Nat} (slot : imageField rest m 0 ≠ i.1) :
      (tableOfEntries ((List.range (m + 1)).map (entryAt rest)))[i] =
        (tableOfEntries ((List.range m).map (entryAt rest)))[i] := by
    rw [last]
    by_cases small : imageField rest m 0 < 32
    · rw [fin?_of_lt small]
      exact upd_other _ (fun same => slot (congrArg Fin.val same)) _
    · rw [fin?_of_not_lt small]
  induction m with
  | zero =>
    refine ⟨fun _ => ?_, fun j within => absurd within (Nat.not_lt_zero j)⟩
    exact Vector.getElem_replicate ..
  | succ m ih =>
    obtain ⟨absent, present⟩ := ih
    refine ⟨fun unnamed => ?_, fun j within slot later => ?_⟩
    · rw [miss (unnamed m (Nat.lt_add_one m)), absent fun j before => unnamed j (by omega)]
    · rcases Nat.lt_succ_iff_lt_or_eq.mp within with before | rfl
      · rw [miss (later m before (Nat.lt_add_one m)), present j before slot fun k after small => later k after (by omega)]
      · exact hit slot

/-! ## The image check (R15) -/

section
variable {f0 f1 f2 n : Word} {rest : List Word}

/-- The image of a fill colour, a used count and entries is in form. -/
def ImageInForm (f0 f1 f2 n : Word) (rest : List Word) : Prop :=
  rest.length = 6 * n.toNat ∧ n.toNat ≤ 32 ∧ f0.toNat < 4096 ∧ f1.toNat < 4096 ∧ f2.toNat < 4096 ∧
    (∀ j, j < entryCount n rest → imageField rest j 0 < 32) ∧ ∀ j, ¬BadEntry rest (entryCount n rest) j

/-- The entries that the image check looks at. -/
def takenEntries (n : Word) (rest : List Word) : List (Nat × Option Tile) :=
  (List.range (entryCount n rest)).map (entryAt rest)

/-- What makes the image check fail. -/
def imageFaulty (f0 f1 f2 n : Word) (rest : List Word) : Bool :=
  decide (32 < n.toNat) || rest.length != 6 * n.toNat || !(badSlots (takenEntries n rest)).isEmpty ||
    (takenEntries n rest).any (fun e => decide (32 ≤ e.1)) || [f0, f1, f2].any (fun w => decide (4096 ≤ w.toNat))

theorem imageCheck_cons : imageCheck (f0 :: f1 :: f2 :: n :: rest) =
    if imageFaulty f0 f1 f2 n rest then .inl (leastOr0 (badSlots (takenEntries n rest)))
    else .inr (⟨f0.toNat, f1.toNat, f2.toNat⟩, tableOfEntries (takenEntries n rest)) := by
  rw [imageFaulty, takenEntries, ← imageEntries_taken, badSlots, List.isEmpty_map]
  rfl

theorem imageFaulty_iff : imageFaulty f0 f1 f2 n rest = false ↔ ImageInForm f0 f1 f2 n rest := by
  simp only [imageFaulty, Bool.or_eq_false_iff, decide_eq_false_iff_not, bne_eq_false_iff_eq, Bool.not_eq_false',
    List.isEmpty_iff, takenEntries, badSlots_empty, List.any_eq_false, List.forall_mem_map, List.mem_range,
    List.forall_mem_cons, List.not_mem_nil, false_imp_iff, implies_true, and_true, decide_eq_true_eq, not_le, not_lt]
  constructor
  · rintro ⟨⟨⟨⟨count, length⟩, good⟩, slots⟩, c0, c1, c2⟩
    exact ⟨length, count, c0, c1, c2, slots, good⟩
  · rintro ⟨length, count, c0, c1, c2, slots, good⟩
    exact ⟨⟨⟨⟨count, length⟩, good⟩, slots⟩, c0, c1, c2⟩

theorem imageCheck_in (form : ImageInForm f0 f1 f2 n rest) :
    imageCheck (f0 :: f1 :: f2 :: n :: rest) =
      .inr (⟨f0.toNat, f1.toNat, f2.toNat⟩, tableOfEntries (takenEntries n rest)) := by
  rw [imageCheck_cons, imageFaulty_iff.mpr form]
  rfl

theorem imageCheck_out (faulty : ¬ImageInForm f0 f1 f2 n rest) :
    imageCheck (f0 :: f1 :: f2 :: n :: rest) = .inl (leastOr0 (badSlots (takenEntries n rest))) := by
  rw [imageCheck_cons, if_pos]
  exact Bool.not_eq_false _ ▸ fun clear => faulty (imageFaulty_iff.mp clear)

/-- An image in form has each slot at most once, so the table holds each entry at its slot. -/
theorem tableOfEntries_of_form (form : ImageInForm f0 f1 f2 n rest) (i : Fin 32) :
    ((∀ j, j < entryCount n rest → imageField rest j 0 ≠ i.1) →
      (tableOfEntries (takenEntries n rest))[i] = none) ∧
    ∀ j, j < entryCount n rest → imageField rest j 0 = i.1 → ∃ e : Tile,
      (tableOfEntries (takenEntries n rest))[i] = some e ∧
      e.port.1 = imageField rest j 1 / 256 ∧ e.pos.1 = imageField rest j 1 % 256 ∧ e.x = imageField rest j 2 ∧
      e.y = imageField rest j 3 ∧ e.w = imageField rest j 4 / 256 + 1 ∧ e.h = imageField rest j 4 % 256 + 1 ∧
      e.mirrorH = decide (imageField rest j 5 / 32768 = 1) ∧
      e.mirrorV = decide (imageField rest j 5 / 16384 % 2 = 1) ∧
      e.table.1 = imageField rest j 5 / 256 % 8 ∧ e.bright = imageField rest j 5 % 256 := by
  obtain ⟨-, -, -, -, -, slots, good⟩ := form
  obtain ⟨absent, present⟩ := tableOfEntries_range rest (entryCount n rest) i
  refine ⟨absent, fun j within slot => ?_⟩
  have once (k : Nat) (after : j < k) (taken : k < entryCount n rest) : imageField rest k 0 ≠ i.1 := fun again =>
    good j ⟨within, slots j within, .inr ⟨k, taken, by omega, again.trans slot.symm⟩⟩
  have inRange : EntryInRange rest j := by
    by_contra outside
    exact good j ⟨within, slots j within, .inl outside⟩
  obtain ⟨e, tile, fields⟩ := entryAt_in inRange
  exact ⟨e, (present j within slot once).trans tile, fields⟩

theorem imageCheck_none_bad (faulty : ¬ImageInForm f0 f1 f2 n rest)
    (good : ∀ j, ¬BadEntry rest (entryCount n rest) j) : imageCheck (f0 :: f1 :: f2 :: n :: rest) = .inl 0 := by
  rw [imageCheck_out faulty, takenEntries, badSlots_empty.mpr good]
  rfl

theorem imageCheck_least_bad {j : Nat} (bad : BadEntry rest (entryCount n rest) j)
    (least : ∀ k, BadEntry rest (entryCount n rest) k → imageField rest j 0 ≤ imageField rest k 0) :
    imageCheck (f0 :: f1 :: f2 :: n :: rest) = .inl (imageField rest j 0) := by
  have faulty : ¬ImageInForm f0 f1 f2 n rest := fun ⟨_, _, _, _, _, _, good⟩ => good j bad
  rw [imageCheck_out faulty, takenEntries, leastOr0_least (mem_badSlots.mpr ⟨j, bad, rfl⟩)]
  rintro _ reported
  obtain ⟨k, worse, rfl⟩ := mem_badSlots.mp reported
  exact least k worse

/-- The words after the four of the head, read from the start of the image. -/
theorem getD_image (j i : Nat) : ((f0 :: f1 :: f2 :: n :: rest).getD (4 + 6 * j + i) 0).toNat = imageField rest j i := by
  rw [show 4 + 6 * j + i = 6 * j + i + 1 + 1 + 1 + 1 by omega]
  rfl

end

/-! ## The statement -/

section
variable {t : TileTable} {bad : Nat × Tile → Prop} {fails : Nat × Tile → Bool}

theorem firstSlot_passes (same : ∀ e, fails e = true ↔ bad e) :
    firstSlot (used t) fails = none ↔ ∀ e ∈ used t, ¬bad e :=
  firstSlot_eq_none.trans (forall₂_congr fun e _ => not_congr (same e))

theorem firstSlot_fails {n : Nat} (same : ∀ e, fails e = true ↔ bad e)
    (lowest : (∃ e ∈ used t, e.1 = n ∧ bad e) ∧ ∀ f ∈ used t, bad f → n ≤ f.1) :
    firstSlot (used t) fails = some n := by
  obtain ⟨⟨e, tile, rfl, failing⟩, least⟩ := lowest
  exact firstSlot_lowest (usedFrom_sorted 0 _) tile ((same e).mpr failing) fun f there wrong => least f there ((same f).mp wrong)

end

/-- Settles O42: the four checks are their conditions, named by the lowest slot in ascending slot order; and the image
check by the form of the image, its entries counted from the fourth word. -/
theorem validationChecksFourConditions : Obligations.ValidationChecksFourConditions := by
  constructor
  · intro t ts range twice gap exceeds passes lowest
    have rangeSame (e : Nat × Tile) : rangeFails e.2 = true ↔ range e := rangeFails_iff
    have twiceSame (e : Nat × Tile) : duplicated ts e = true ↔ twice e := duplicated_iff
    have gapSame (e : Nat × Tile) : gapped ts e = true ↔ gap e := gapped_iff
    have budgetSame (e : Nat × Tile) : overBudget ts e = true ↔ exceeds e := by
      simp only [overBudget_iff, portLoad_eq, exceeds]
    refine ⟨fun e => mem_used, ?_, fun n => ⟨fun low => ?_, fun p1 low => ?_, fun p1 p2 low => ?_, fun p1 p2 p3 low => ?_⟩⟩
    · exact validateTiles_ok.trans (and_congr (firstSlot_passes rangeSame) (and_congr (firstSlot_passes twiceSame)
        (and_congr (firstSlot_passes gapSame) (firstSlot_passes budgetSame))))
    · exact validateTiles_range (firstSlot_fails rangeSame low)
    · exact validateTiles_twice ((firstSlot_passes rangeSame).mpr p1) (firstSlot_fails twiceSame low)
    · exact validateTiles_gap ((firstSlot_passes rangeSame).mpr p1) ((firstSlot_passes twiceSame).mpr p2)
        (firstSlot_fails gapSame low)
    · exact validateTiles_budget ((firstSlot_passes rangeSame).mpr p1) ((firstSlot_passes twiceSame).mpr p2)
        ((firstSlot_passes gapSame).mpr p3) (firstSlot_fails budgetSame low)
  · intro ws
    match ws with
    | [] | [_] | [_, _] | [_, _, _] =>
      intro word field m inRange bad inForm
      have good (j : Nat) : ¬bad j := fun ⟨within, _⟩ => absurd within (by simp [m])
      have short : ¬inForm := fun ⟨length, _⟩ => by simp only [List.length_cons, List.length_nil] at length; omega
      exact ⟨fun form => absurd form short, fun _ => ⟨fun _ => rfl, fun j wrong => absurd wrong (good j)⟩⟩
    | f0 :: f1 :: f2 :: n :: rest =>
      intro word field m inRange bad inForm
      have fields : field = imageField rest := funext₂ getD_image
      have count : m = entryCount n rest := rfl
      have badSame : bad = BadEntry rest (entryCount n rest) := by
        funext j
        simp only [bad, BadEntry, EntryInRange, inRange, fields, count]
      have formSame : inForm ↔ ImageInForm f0 f1 f2 n rest := by
        simp only [inForm, ImageInForm, badSame, fields, count]
        refine and_congr ?_ Iff.rfl
        show rest.length + 1 + 1 + 1 + 1 = 4 + 6 * n.toNat ↔ _
        omega
      rw [formSame, fields, count, badSame]
      exact ⟨fun form => ⟨_, imageCheck_in form, tableOfEntries_of_form form⟩,
        fun faulty => ⟨imageCheck_none_bad faulty, fun j => imageCheck_least_bad⟩⟩

end Sys2Proof.Machine
end
